-- ==== Sys2Proof/Word.lean ====
section
/-! DEFINITION. The word type of the block: the byte (00_scope.md R8, 20_memory.md R53: every access is one byte wide). -/

namespace Sys2Proof

/-- A byte, bits 7 (most significant) down to 0 (R8). -/
abbrev Byte := BitVec 8

end Sys2Proof
end

