-- ==== Sys2Proof/Machine/Ports.lean ====
section
/-! DEFINITION. The vocabulary of the block's ports (10_state.md R30 to R34, R38, R39): what is asked, what is answered,
what is called, submitted, logged and recorded. -/

namespace Sys2Proof

/-- The VFO a frequency or mode item is about: the active one or the other one (R31). -/
inductive VfoSel where
  | selected
  | unselected
deriving DecidableEq, Repr, Inhabited

/-- The two VFOs (R31 `ActiveVfo`, R204). -/
inductive Vfo where
  | a
  | b
deriving DecidableEq, Repr, Inhabited

/-- The seven level fields (R31, R171). -/
inductive LevelField where
  | af
  | rf
  | sql
  | nr
  | nb
  | pwr
  | dnf
deriving DecidableEq, Repr, Inhabited

/-- The nine toggles (R31 `ToggleState`). -/
inductive Toggle where
  | preamp
  | agc
  | nbOn
  | nrOn
  | dnfOn
  | ptt
  | atu
  | att
  | split
deriving DecidableEq, Repr, Inhabited

/-- The radio's internal modes as the block sees them; `other n` is any mode the protocol cannot name (R38). -/
inductive InternalMode where
  | lsb
  | lsbDig
  | usb
  | usbDig
  | am
  | cw
  | cwr
  | nfm
  | other (n : Nat)
deriving DecidableEq, Repr, Inhabited

/-- Why a request is answered NAK (60_exceptions.md R302). -/
inductive NakReason where
  | unknownCommand
  | unknownSub
  | badForm
  | badLength
  | badValue
deriving DecidableEq, Repr

namespace Machine

/-- What `Log` carries: a NAK reason, or the start failure (R34). -/
inductive LogReason where
  | nak (r : NakReason)
  | initFailed
deriving DecidableEq, Repr

/-- The query items of R31. -/
inductive QueryItem where
  | freqOf (w : VfoSel)
  | modeOf (w : VfoSel)
  | activeVfo
  | level (f : LevelField)
  | toggleState (t : Toggle)
  | width
deriving DecidableEq, Repr

/-- A query answer, one constructor per answer type of R31. For PWR the level is in tenths (D25). -/
inductive Answer where
  | freq (hz : Nat)
  | mode (m : InternalMode)
  | vfo (v : Vfo)
  | level (v : Int)
  | toggle (b : Byte)
  | width (n : Nat)
deriving DecidableEq, Repr

/-- The calls of the radio-control port (R32). -/
inductive ControlCall where
  | applyDelta (f : LevelField) (d : Int)
  | setToggle (t : Toggle) (b : Byte)
deriving DecidableEq, Repr

/-- The Pending Mutations, a closed set (R33, D43). -/
inductive Mutation where
  | setFreq (w : VfoSel) (hz : Nat)
  | setMode (w : VfoSel) (m : InternalMode)
  | selectVfo (v : Vfo)
deriving DecidableEq, Repr

/-- The events of the trace (R39); one `tx` per byte sent. -/
inductive Event where
  | rxByte (b : Byte)
  | tx (b : Byte)
  | qry (k : QueryItem) (answer : Answer)
  | ctl (c : ControlCall)
  | mut (m : Mutation)
  | notify
  | log (r : LogReason)
deriving DecidableEq, Repr

end Machine

end Sys2Proof
end

