-- ==== Sys2Proof/Config.lean ====
section
/-! DEFINITION. The implementation parameters of 00_scope.md R6: the fixed constants, the OPEN parameters as one record of
plain data, the defaults the spec suggests for them, and the free values (what the environment answers where nothing is
given, 10_state.md R31, R344). -/

namespace Sys2Proof

/-- `PRE = 0xFE` (R6). -/
def preByte : Byte := 0xFE#8

/-- `END = 0xFD` (R6). -/
def endByte : Byte := 0xFD#8

/-- `DEVICE_ADDR = 0xA4` (R6). -/
def deviceAddr : Byte := 0xA4#8

/-- `ACK_CODE = 0xFB` (R6). -/
def ackCode : Byte := 0xFB#8

/-- `MAX_FRAME = 256` bytes (R6, R22). -/
def maxFrame : Nat := 256

/-- `C_RD_FREQ = 0x03`, fixed by the source (R6). -/
def codeRdFreq : Byte := 0x03#8

/-- `C_SET_FREQ = 0x05`, fixed by the source (R6). -/
def codeSetFreq : Byte := 0x05#8

/-- The LSB mode code `0x00`, fixed by the source (R6, R200). -/
def codeLsb : Byte := 0x00#8

/-- ROUND_TIES (R6, D22). The spec gives the meaning of HALF_UP; the other two are PRESUMED (log 7). -/
inductive RoundTies where
  | halfUp
  | halfDown
  | halfEven
deriving DecidableEq, Repr

/-- DIV_ROUNDING (R6, D24): TRUNC, or the FLOOR that vectors K27 and K39 name (log 8). -/
inductive DivRounding where
  | trunc
  | floor
deriving DecidableEq, Repr

/-- SUB_ATT and SUB_SPLT, which exist only when ATT_SPLT_HAVE_SUB is true (R6, D29). -/
structure AttSpltSubs where
  att : Byte
  splt : Byte
deriving DecidableEq, Repr

/-- The OPEN parameters of R6. A block is built with one of these and no frame changes it (R27). -/
structure Config where
  /-- CMD_CODE (R76), less the two codes the source fixes. -/
  cRdMode : Byte
  cSetMode : Byte
  cSetVfo : Byte
  cCtlSplt : Byte
  cCtlAtt : Byte
  cCtlLvl : Byte
  cCtlFunc : Byte
  cRdTrxid : Byte
  cCtlMem : Byte
  cCtlPtt : Byte
  cSendSelFreq : Byte
  cSendSelMode : Byte
  /-- SUB_CODE (R77). -/
  subLvlAf : Byte
  subLvlRf : Byte
  subLvlSql : Byte
  subLvlNr : Byte
  subLvlPwr : Byte
  subLvlDnf : Byte
  subLvlNb : Byte
  subFuncPreamp : Byte
  subFuncAgc : Byte
  subFuncNb : Byte
  subFuncNr : Byte
  subFuncDnf : Byte
  subPtt : Byte
  subAtu : Byte
  subMemWidth : Byte
  subTrxid : Byte
  subSelSelected : Byte
  subSelUnselected : Byte
  /-- ATT_SPLT_HAVE_SUB with SUB_ATT and SUB_SPLT: `none` is false (R6, D29, C11). -/
  attSpltSubs : Option AttSpltSubs
  /-- MODE_CODE (R200), less LSB. -/
  modeUsb : Byte
  modeAm : Byte
  modeCw : Byte
  modeNfm : Byte
  modeCwr : Byte
  /-- VFO_CODE (R6, R204, D31). -/
  vfoA : Byte
  vfoB : Byte
  /-- NAK_CODE (D11). -/
  nakCode : Byte
  /-- FILTER_CODE (D34). -/
  filterCode : Byte
  /-- WIDTH_DIGITS (D35). -/
  widthDigits : Nat
  /-- FREQ_BITS (D4). -/
  freqBits : Nat
  /-- ROUND_TIES (D22). -/
  roundTies : RoundTies
  /-- DIV_ROUNDING (D24). -/
  divRounding : DivRounding
  /-- INIT_OK (D41). -/
  initOk : Bool
deriving DecidableEq, Repr

/-- The defaults of R6, R76, R77 and R200. PRESUMED, unsafe: the code values are the CI-V family's (log 3).
INIT_OK has no default in the spec; DESIGN CHOICE, unsafe: true (log 4). -/
def Config.defaults : Config where
  cRdMode := 0x04#8
  cSetMode := 0x06#8
  cSetVfo := 0x07#8
  cCtlSplt := 0x0F#8
  cCtlAtt := 0x11#8
  cCtlLvl := 0x14#8
  cCtlFunc := 0x16#8
  cRdTrxid := 0x19#8
  cCtlMem := 0x1A#8
  cCtlPtt := 0x1C#8
  cSendSelFreq := 0x25#8
  cSendSelMode := 0x26#8
  subLvlAf := 0x01#8
  subLvlRf := 0x02#8
  subLvlSql := 0x03#8
  subLvlNr := 0x06#8
  subLvlPwr := 0x0A#8
  subLvlDnf := 0x0D#8
  subLvlNb := 0x12#8
  subFuncPreamp := 0x02#8
  subFuncAgc := 0x12#8
  subFuncNb := 0x22#8
  subFuncNr := 0x40#8
  subFuncDnf := 0x48#8
  subPtt := 0x00#8
  subAtu := 0x01#8
  subMemWidth := 0x03#8
  subTrxid := 0x00#8
  subSelSelected := 0x00#8
  subSelUnselected := 0x01#8
  attSpltSubs := none
  modeUsb := 0x01#8
  modeAm := 0x02#8
  modeCw := 0x03#8
  modeNfm := 0x05#8
  modeCwr := 0x07#8
  vfoA := 0x00#8
  vfoB := 0x01#8
  nakCode := 0xFA#8
  filterCode := 0x01#8
  widthDigits := 2
  freqBits := 64
  roundTies := .halfUp
  divRounding := .trunc
  initOk := true

/-! The free values: what the environment gives where the state's lists give nothing. No body, so no proof can lean on
one; each is applied to a counter of the state, so every draw is a fresh one (log 2). -/

/-- The result of the n-th `RxNext()`: a byte or NONE (R30, R344). -/
opaque Config.freeRx : Nat → Option Byte

/-- A `FreqOf` answer (R31). -/
opaque Config.freeFreq : Nat → Nat

/-- A `ModeOf` answer (R31). -/
opaque Config.freeMode : Nat → InternalMode

/-- An `ActiveVfo` answer (R31). -/
opaque Config.freeVfo : Nat → Vfo

/-- A `Level` answer: any integer, in range or not (R31, log 19). -/
opaque Config.freeLevel : Nat → Int

/-- A `ToggleState` answer (R31). -/
opaque Config.freeToggle : Nat → Byte

/-- A `Width` answer (R31). -/
opaque Config.freeWidth : Nat → Nat

end Sys2Proof
end

