-- ==== Sys2Proof/Syntax.lean ====
section
/-! DEFINITION. The instructions: one constructor per row of spec/opcode_table.json (30_encoding.md R80). Every request
carries its address bytes `dst` and `src` (R71); operands are the raw bytes of the frame, so that no bit of an encoding is
lost, and the selector `ww` of the 25 and 26 commands is the VFO it names (R77). -/

namespace Sys2Proof

/-- The request frames (R80). `f0`..`f4` are FREQ10 in wire order, `h l` is LVL4, `mm` MODE8, `ff` FILT8, `dd` DATA8,
`vv` VFO8, `bb` RAW8 (R79). -/
inductive Instr where
  | rdFreq (dst src : Byte)
  | rdMode (dst src : Byte)
  | setFreq (dst src f0 f1 f2 f3 f4 : Byte)
  | setMode (dst src mm : Byte)
  | setModeFil (dst src mm ff : Byte)
  | setVfo (dst src vv : Byte)
  | spltQ (dst src : Byte)
  | spltS (dst src bb : Byte)
  | attQ (dst src : Byte)
  | attS (dst src bb : Byte)
  | lvlAfQ (dst src : Byte)
  | lvlAfS (dst src h l : Byte)
  | lvlRfQ (dst src : Byte)
  | lvlRfS (dst src h l : Byte)
  | lvlSqlQ (dst src : Byte)
  | lvlSqlS (dst src h l : Byte)
  | lvlNrQ (dst src : Byte)
  | lvlNrS (dst src h l : Byte)
  | lvlNbQ (dst src : Byte)
  | lvlNbS (dst src h l : Byte)
  | lvlPwrQ (dst src : Byte)
  | lvlPwrS (dst src h l : Byte)
  | lvlDnfQ (dst src : Byte)
  | lvlDnfS (dst src h l : Byte)
  | funcPreampQ (dst src : Byte)
  | funcPreampS (dst src bb : Byte)
  | funcAgcQ (dst src : Byte)
  | funcAgcS (dst src bb : Byte)
  | funcNbQ (dst src : Byte)
  | funcNbS (dst src bb : Byte)
  | funcNrQ (dst src : Byte)
  | funcNrS (dst src bb : Byte)
  | funcDnfQ (dst src : Byte)
  | funcDnfS (dst src bb : Byte)
  | rdTrxid (dst src : Byte)
  | memWidthQ (dst src : Byte)
  | pttQ (dst src : Byte)
  | pttS (dst src bb : Byte)
  | atuQ (dst src : Byte)
  | atuS (dst src bb : Byte)
  | selFreqQ (dst src : Byte) (w : VfoSel)
  | selFreqS (dst src : Byte) (w : VfoSel) (f0 f1 f2 f3 f4 : Byte)
  | selModeQ (dst src : Byte) (w : VfoSel)
  | selModeS (dst src : Byte) (w : VfoSel) (mm dd ff : Byte)
deriving DecidableEq, Repr

end Sys2Proof
end

