-- ==== Sys2Proof/WellFormed.lean ====
section
/-! DEFINITION. Which instruction terms are request frames: a frame ends at its first END, so no address or operand byte of
a request equals 0xFD (30_encoding.md R72). Nothing else is asked: a bad mode, VFO or data byte is a request with a NAK for
its answer (60_exceptions.md R302). -/

namespace Sys2Proof

/-- No byte of the list is END (R72). -/
def clearOfEnd (bs : List Byte) : Bool := bs.all (fun b => b != endByte)

/-- The address and operand bytes of the instruction are all different from END (R72). -/
def Instr.wf : Instr → Bool
  | .rdFreq dst src => clearOfEnd [dst, src]
  | .rdMode dst src => clearOfEnd [dst, src]
  | .setFreq dst src f0 f1 f2 f3 f4 => clearOfEnd [dst, src, f0, f1, f2, f3, f4]
  | .setMode dst src mm => clearOfEnd [dst, src, mm]
  | .setModeFil dst src mm ff => clearOfEnd [dst, src, mm, ff]
  | .setVfo dst src vv => clearOfEnd [dst, src, vv]
  | .spltQ dst src => clearOfEnd [dst, src]
  | .spltS dst src bb => clearOfEnd [dst, src, bb]
  | .attQ dst src => clearOfEnd [dst, src]
  | .attS dst src bb => clearOfEnd [dst, src, bb]
  | .lvlAfQ dst src => clearOfEnd [dst, src]
  | .lvlAfS dst src h l => clearOfEnd [dst, src, h, l]
  | .lvlRfQ dst src => clearOfEnd [dst, src]
  | .lvlRfS dst src h l => clearOfEnd [dst, src, h, l]
  | .lvlSqlQ dst src => clearOfEnd [dst, src]
  | .lvlSqlS dst src h l => clearOfEnd [dst, src, h, l]
  | .lvlNrQ dst src => clearOfEnd [dst, src]
  | .lvlNrS dst src h l => clearOfEnd [dst, src, h, l]
  | .lvlNbQ dst src => clearOfEnd [dst, src]
  | .lvlNbS dst src h l => clearOfEnd [dst, src, h, l]
  | .lvlPwrQ dst src => clearOfEnd [dst, src]
  | .lvlPwrS dst src h l => clearOfEnd [dst, src, h, l]
  | .lvlDnfQ dst src => clearOfEnd [dst, src]
  | .lvlDnfS dst src h l => clearOfEnd [dst, src, h, l]
  | .funcPreampQ dst src => clearOfEnd [dst, src]
  | .funcPreampS dst src bb => clearOfEnd [dst, src, bb]
  | .funcAgcQ dst src => clearOfEnd [dst, src]
  | .funcAgcS dst src bb => clearOfEnd [dst, src, bb]
  | .funcNbQ dst src => clearOfEnd [dst, src]
  | .funcNbS dst src bb => clearOfEnd [dst, src, bb]
  | .funcNrQ dst src => clearOfEnd [dst, src]
  | .funcNrS dst src bb => clearOfEnd [dst, src, bb]
  | .funcDnfQ dst src => clearOfEnd [dst, src]
  | .funcDnfS dst src bb => clearOfEnd [dst, src, bb]
  | .rdTrxid dst src => clearOfEnd [dst, src]
  | .memWidthQ dst src => clearOfEnd [dst, src]
  | .pttQ dst src => clearOfEnd [dst, src]
  | .pttS dst src bb => clearOfEnd [dst, src, bb]
  | .atuQ dst src => clearOfEnd [dst, src]
  | .atuS dst src bb => clearOfEnd [dst, src, bb]
  | .selFreqQ dst src _ => clearOfEnd [dst, src]
  | .selFreqS dst src _ f0 f1 f2 f3 f4 => clearOfEnd [dst, src, f0, f1, f2, f3, f4]
  | .selModeQ dst src _ => clearOfEnd [dst, src]
  | .selModeS dst src _ mm dd ff => clearOfEnd [dst, src, mm, dd, ff]

end Sys2Proof
end

