-- ==== Sys2Proof/Decode.lean ====
section
/-! DEFINITION. The code tables (30_encoding.md R76, R77), the decoder of a complete frame (framing check, routing, form and
length: 41_dispatcher.md R120, R121, R126, R127, R128), the encoder (R80), and the host's reading of an opcode-table word. -/

namespace Sys2Proof

/-- The command families, one per command code (R76). -/
inductive Family where
  | rdFreq
  | rdMode
  | setFreq
  | setMode
  | setVfo
  | ctlSplt
  | ctlAtt
  | ctlLvl
  | ctlFunc
  | rdTrxid
  | ctlMem
  | ctlPtt
  | sendSelFreq
  | sendSelMode
deriving DecidableEq, Repr

/-- The families in dispatch order (R76, R126). -/
def Family.all : List Family :=
  [.rdFreq, .rdMode, .setFreq, .setMode, .setVfo, .ctlSplt, .ctlAtt, .ctlLvl, .ctlFunc, .rdTrxid, .ctlMem, .ctlPtt,
    .sendSelFreq, .sendSelMode]

/-- What one (family, sub-command) controls: the handlers that routing selects (R126, R127). -/
inductive Handler where
  | rdFreq
  | rdMode
  | setFreq
  | setMode
  | setVfo
  | toggle (t : Toggle)
  | level (f : LevelField)
  | trxid
  | memWidth
  | selFreq (w : VfoSel)
  | selMode (w : VfoSel)
deriving DecidableEq, Repr

/-- Why a complete frame decodes to no instruction: dropped (R121) or answered NAK (R126 to R128). -/
inductive Reject where
  | framing
  | nak (r : NakReason)
deriving DecidableEq, Repr

/-- CMD_CODE (R76). -/
def cmdCode (cfg : Config) : Family → Byte
  | .rdFreq => codeRdFreq
  | .rdMode => cfg.cRdMode
  | .setFreq => codeSetFreq
  | .setMode => cfg.cSetMode
  | .setVfo => cfg.cSetVfo
  | .ctlSplt => cfg.cCtlSplt
  | .ctlAtt => cfg.cCtlAtt
  | .ctlLvl => cfg.cCtlLvl
  | .ctlFunc => cfg.cCtlFunc
  | .rdTrxid => cfg.cRdTrxid
  | .ctlMem => cfg.cCtlMem
  | .ctlPtt => cfg.cCtlPtt
  | .sendSelFreq => cfg.cSendSelFreq
  | .sendSelMode => cfg.cSendSelMode

/-- SUB_CODE of the level fields (R77). -/
def levelSub (cfg : Config) : LevelField → Byte
  | .af => cfg.subLvlAf
  | .rf => cfg.subLvlRf
  | .sql => cfg.subLvlSql
  | .nr => cfg.subLvlNr
  | .nb => cfg.subLvlNb
  | .pwr => cfg.subLvlPwr
  | .dnf => cfg.subLvlDnf

/-- SUB_CODE of the toggles (R77); ATT and SPLIT have one only when ATT_SPLT_HAVE_SUB is true (D29). -/
def toggleSub (cfg : Config) : Toggle → Option Byte
  | .preamp => some cfg.subFuncPreamp
  | .agc => some cfg.subFuncAgc
  | .nbOn => some cfg.subFuncNb
  | .nrOn => some cfg.subFuncNr
  | .dnfOn => some cfg.subFuncDnf
  | .ptt => some cfg.subPtt
  | .atu => some cfg.subAtu
  | .att => cfg.attSpltSubs.map (fun s => s.att)
  | .split => cfg.attSpltSubs.map (fun s => s.splt)

/-- SUB_CODE of the selectors (R77, D47). -/
def selSub (cfg : Config) : VfoSel → Byte
  | .selected => cfg.subSelSelected
  | .unselected => cfg.subSelUnselected

/-- The family of each toggle (R275, D30). -/
def toggleFamily : Toggle → Family
  | .preamp => .ctlFunc
  | .agc => .ctlFunc
  | .nbOn => .ctlFunc
  | .nrOn => .ctlFunc
  | .dnfOn => .ctlFunc
  | .ptt => .ctlPtt
  | .atu => .ctlPtt
  | .att => .ctlAtt
  | .split => .ctlSplt

/-- The family a handler belongs to (R76). -/
def Handler.family : Handler → Family
  | .rdFreq => .rdFreq
  | .rdMode => .rdMode
  | .setFreq => .setFreq
  | .setMode => .setMode
  | .setVfo => .setVfo
  | .toggle t => toggleFamily t
  | .level _ => .ctlLvl
  | .trxid => .rdTrxid
  | .memWidth => .ctlMem
  | .selFreq _ => .sendSelFreq
  | .selMode _ => .sendSelMode

/-- The sub-command byte of a handler, where its family has one (R73, R77). -/
def Handler.sub (cfg : Config) : Handler → Option Byte
  | .rdFreq => none
  | .rdMode => none
  | .setFreq => none
  | .setMode => none
  | .setVfo => none
  | .toggle t => toggleSub cfg t
  | .level f => some (levelSub cfg f)
  | .trxid => some cfg.subTrxid
  | .memWidth => some cfg.subMemWidth
  | .selFreq w => some (selSub cfg w)
  | .selMode w => some (selSub cfg w)

/-- The bytes CMD and, where the family has one, SUB: they open the request after its envelope and the answer after its
header (R71, R130). -/
def Handler.head (cfg : Config) (h : Handler) : List Byte :=
  cmdCode cfg h.family :: (h.sub cfg).toList

/-- How a family goes on after CMD: straight to a handler, or by a sub-command table in the order of R77. -/
inductive Route where
  | plain (h : Handler)
  | bySub (hs : List Handler)
deriving DecidableEq, Repr

/-- C_CTL_ATT and C_CTL_SPLT have a sub-command byte only when ATT_SPLT_HAVE_SUB is true (D29, C11). -/
def attSpltRoute (cfg : Config) (t : Toggle) : Route :=
  match cfg.attSpltSubs with
  | none => .plain (.toggle t)
  | some _ => .bySub [.toggle t]

/-- The "Sub" column of R76 with the rows of R77, in their order. -/
def Family.route (cfg : Config) : Family → Route
  | .rdFreq => .plain .rdFreq
  | .rdMode => .plain .rdMode
  | .setFreq => .plain .setFreq
  | .setMode => .plain .setMode
  | .setVfo => .plain .setVfo
  | .ctlSplt => attSpltRoute cfg .split
  | .ctlAtt => attSpltRoute cfg .att
  | .ctlLvl => .bySub [.level .af, .level .rf, .level .sql, .level .nr, .level .pwr, .level .dnf, .level .nb]
  | .ctlFunc => .bySub [.toggle .preamp, .toggle .agc, .toggle .nbOn, .toggle .nrOn, .toggle .dnfOn]
  | .rdTrxid => .bySub [.trxid]
  | .ctlMem => .bySub [.memWidth]
  | .ctlPtt => .bySub [.toggle .ptt, .toggle .atu]
  | .sendSelFreq => .bySub [.selFreq .selected, .selFreq .unselected]
  | .sendSelMode => .bySub [.selMode .selected, .selMode .unselected]

/-- The handlers that share a family's sub-command table. -/
def Route.handlers : Route → List Handler
  | .plain h => [h]
  | .bySub hs => hs

/-- The first family whose command code is `b` (R126). -/
def findFamily (cfg : Config) (b : Byte) : Option Family :=
  Family.all.find? (fun f => cmdCode cfg f == b)

/-- The first handler of the table whose sub-code is `b` (R127). -/
def findSub (cfg : Config) (hs : List Handler) (b : Byte) : Option Handler :=
  hs.find? (fun h => h.sub cfg == some b)

/-- The query form of a handler, where it has one (R80, R302 `BadForm`). -/
def Handler.queryForm (dst src : Byte) : Handler → Option Instr
  | .rdFreq => some (.rdFreq dst src)
  | .rdMode => some (.rdMode dst src)
  | .setFreq => none
  | .setMode => none
  | .setVfo => none
  | .toggle .preamp => some (.funcPreampQ dst src)
  | .toggle .agc => some (.funcAgcQ dst src)
  | .toggle .nbOn => some (.funcNbQ dst src)
  | .toggle .nrOn => some (.funcNrQ dst src)
  | .toggle .dnfOn => some (.funcDnfQ dst src)
  | .toggle .ptt => some (.pttQ dst src)
  | .toggle .atu => some (.atuQ dst src)
  | .toggle .att => some (.attQ dst src)
  | .toggle .split => some (.spltQ dst src)
  | .level .af => some (.lvlAfQ dst src)
  | .level .rf => some (.lvlRfQ dst src)
  | .level .sql => some (.lvlSqlQ dst src)
  | .level .nr => some (.lvlNrQ dst src)
  | .level .nb => some (.lvlNbQ dst src)
  | .level .pwr => some (.lvlPwrQ dst src)
  | .level .dnf => some (.lvlDnfQ dst src)
  | .trxid => some (.rdTrxid dst src)
  | .memWidth => some (.memWidthQ dst src)
  | .selFreq w => some (.selFreqQ dst src w)
  | .selMode w => some (.selModeQ dst src w)

/-- The set form with no payload byte read yet: whether the handler has one (R80, R302 `BadForm`). -/
def Handler.hasSet : Handler → Bool
  | .rdFreq => false
  | .rdMode => false
  | .setFreq => true
  | .setMode => true
  | .setVfo => true
  | .toggle _ => true
  | .level _ => true
  | .trxid => false
  | .memWidth => false
  | .selFreq _ => true
  | .selMode _ => true

/-- The set form of a handler with its payload `req[p .. L-2]`; `none` where the payload has not the length of R80
(R128 `BadLength`, D18). -/
def Handler.setForm (dst src : Byte) : Handler → List Byte → Option Instr
  | .setFreq, [f0, f1, f2, f3, f4] => some (.setFreq dst src f0 f1 f2 f3 f4)
  | .setMode, [mm] => some (.setMode dst src mm)
  | .setMode, [mm, ff] => some (.setModeFil dst src mm ff)
  | .setVfo, [vv] => some (.setVfo dst src vv)
  | .toggle .preamp, [bb] => some (.funcPreampS dst src bb)
  | .toggle .agc, [bb] => some (.funcAgcS dst src bb)
  | .toggle .nbOn, [bb] => some (.funcNbS dst src bb)
  | .toggle .nrOn, [bb] => some (.funcNrS dst src bb)
  | .toggle .dnfOn, [bb] => some (.funcDnfS dst src bb)
  | .toggle .ptt, [bb] => some (.pttS dst src bb)
  | .toggle .atu, [bb] => some (.atuS dst src bb)
  | .toggle .att, [bb] => some (.attS dst src bb)
  | .toggle .split, [bb] => some (.spltS dst src bb)
  | .level .af, [h, l] => some (.lvlAfS dst src h l)
  | .level .rf, [h, l] => some (.lvlRfS dst src h l)
  | .level .sql, [h, l] => some (.lvlSqlS dst src h l)
  | .level .nr, [h, l] => some (.lvlNrS dst src h l)
  | .level .nb, [h, l] => some (.lvlNbS dst src h l)
  | .level .pwr, [h, l] => some (.lvlPwrS dst src h l)
  | .level .dnf, [h, l] => some (.lvlDnfS dst src h l)
  | .selFreq w, [f0, f1, f2, f3, f4] => some (.selFreqS dst src w f0 f1 f2 f3 f4)
  | .selMode w, [mm, dd, ff] => some (.selModeS dst src w mm dd ff)
  | _, _ => none

/-- Form and length (R74, R128). `tail` is `req[p .. L-1]`, from the first payload position to the END. -/
def decodeForm (dst src : Byte) (h : Handler) (tail : List Byte) : Except Reject Instr :=
  match tail with
  | [] => .error (.nak .badForm)
  | x :: rest =>
    if x = endByte then
      match h.queryForm dst src with
      | none => .error (.nak .badForm)
      | some i => if rest.isEmpty then .ok i else .error (.nak .badLength)
    else if h.hasSet then
      match h.setForm dst src tail.dropLast with
      | none => .error (.nak .badLength)
      | some i => .ok i
    else .error (.nak .badForm)

/-- Sub-command, form and length of a routed request (R127, R128). `x :: rest` is `req[5 .. L-1]`; a family with a
sub-command and nothing after it has L = 6 and no SUB byte (D16). -/
def decodeRouted (cfg : Config) (dst src : Byte) (fam : Family) (x : Byte) (rest : List Byte) : Except Reject Instr :=
  match fam.route cfg with
  | .plain h => decodeForm dst src h (x :: rest)
  | .bySub hs =>
    match rest with
    | [] => .error (.nak .unknownSub)
    | _ :: _ =>
      match findSub cfg hs x with
      | none => .error (.nak .unknownSub)
      | some h => decodeForm dst src h rest

/-- The whole of `dispatch()`'s checks on a complete frame: framing (R121: at least MIN_FRAME = 6 bytes, the first two PRE),
then the routing and validation of R126 to R128 in the priority of R304. Total on any bytes. -/
def decodeFrame (cfg : Config) (req : List Byte) : Except Reject Instr :=
  match req with
  | p0 :: p1 :: dst :: src :: cmd :: x :: rest =>
    if p0 = preByte ∧ p1 = preByte then
      match findFamily cfg cmd with
      | none => .error (.nak .unknownCommand)
      | some fam => decodeRouted cfg dst src fam x rest
    else .error .framing
  | _ => .error .framing

/-! The encoder (R80). -/

/-- The address bytes DST and SRC of a request (R71). -/
def Instr.addrs : Instr → Byte × Byte
  | .rdFreq dst src => (dst, src)
  | .rdMode dst src => (dst, src)
  | .setFreq dst src _ _ _ _ _ => (dst, src)
  | .setMode dst src _ => (dst, src)
  | .setModeFil dst src _ _ => (dst, src)
  | .setVfo dst src _ => (dst, src)
  | .spltQ dst src => (dst, src)
  | .spltS dst src _ => (dst, src)
  | .attQ dst src => (dst, src)
  | .attS dst src _ => (dst, src)
  | .lvlAfQ dst src => (dst, src)
  | .lvlAfS dst src _ _ => (dst, src)
  | .lvlRfQ dst src => (dst, src)
  | .lvlRfS dst src _ _ => (dst, src)
  | .lvlSqlQ dst src => (dst, src)
  | .lvlSqlS dst src _ _ => (dst, src)
  | .lvlNrQ dst src => (dst, src)
  | .lvlNrS dst src _ _ => (dst, src)
  | .lvlNbQ dst src => (dst, src)
  | .lvlNbS dst src _ _ => (dst, src)
  | .lvlPwrQ dst src => (dst, src)
  | .lvlPwrS dst src _ _ => (dst, src)
  | .lvlDnfQ dst src => (dst, src)
  | .lvlDnfS dst src _ _ => (dst, src)
  | .funcPreampQ dst src => (dst, src)
  | .funcPreampS dst src _ => (dst, src)
  | .funcAgcQ dst src => (dst, src)
  | .funcAgcS dst src _ => (dst, src)
  | .funcNbQ dst src => (dst, src)
  | .funcNbS dst src _ => (dst, src)
  | .funcNrQ dst src => (dst, src)
  | .funcNrS dst src _ => (dst, src)
  | .funcDnfQ dst src => (dst, src)
  | .funcDnfS dst src _ => (dst, src)
  | .rdTrxid dst src => (dst, src)
  | .memWidthQ dst src => (dst, src)
  | .pttQ dst src => (dst, src)
  | .pttS dst src _ => (dst, src)
  | .atuQ dst src => (dst, src)
  | .atuS dst src _ => (dst, src)
  | .selFreqQ dst src _ => (dst, src)
  | .selFreqS dst src _ _ _ _ _ _ => (dst, src)
  | .selModeQ dst src _ => (dst, src)
  | .selModeS dst src _ _ _ _ => (dst, src)

/-- The handler of a request (R80). -/
def Instr.handler : Instr → Handler
  | .rdFreq _ _ => .rdFreq
  | .rdMode _ _ => .rdMode
  | .setFreq _ _ _ _ _ _ _ => .setFreq
  | .setMode _ _ _ => .setMode
  | .setModeFil _ _ _ _ => .setMode
  | .setVfo _ _ _ => .setVfo
  | .spltQ _ _ => .toggle .split
  | .spltS _ _ _ => .toggle .split
  | .attQ _ _ => .toggle .att
  | .attS _ _ _ => .toggle .att
  | .lvlAfQ _ _ => .level .af
  | .lvlAfS _ _ _ _ => .level .af
  | .lvlRfQ _ _ => .level .rf
  | .lvlRfS _ _ _ _ => .level .rf
  | .lvlSqlQ _ _ => .level .sql
  | .lvlSqlS _ _ _ _ => .level .sql
  | .lvlNrQ _ _ => .level .nr
  | .lvlNrS _ _ _ _ => .level .nr
  | .lvlNbQ _ _ => .level .nb
  | .lvlNbS _ _ _ _ => .level .nb
  | .lvlPwrQ _ _ => .level .pwr
  | .lvlPwrS _ _ _ _ => .level .pwr
  | .lvlDnfQ _ _ => .level .dnf
  | .lvlDnfS _ _ _ _ => .level .dnf
  | .funcPreampQ _ _ => .toggle .preamp
  | .funcPreampS _ _ _ => .toggle .preamp
  | .funcAgcQ _ _ => .toggle .agc
  | .funcAgcS _ _ _ => .toggle .agc
  | .funcNbQ _ _ => .toggle .nbOn
  | .funcNbS _ _ _ => .toggle .nbOn
  | .funcNrQ _ _ => .toggle .nrOn
  | .funcNrS _ _ _ => .toggle .nrOn
  | .funcDnfQ _ _ => .toggle .dnfOn
  | .funcDnfS _ _ _ => .toggle .dnfOn
  | .rdTrxid _ _ => .trxid
  | .memWidthQ _ _ => .memWidth
  | .pttQ _ _ => .toggle .ptt
  | .pttS _ _ _ => .toggle .ptt
  | .atuQ _ _ => .toggle .atu
  | .atuS _ _ _ => .toggle .atu
  | .selFreqQ _ _ w => .selFreq w
  | .selFreqS _ _ w _ _ _ _ _ => .selFreq w
  | .selModeQ _ _ w => .selMode w
  | .selModeS _ _ w _ _ _ => .selMode w

/-- The payload bytes of a request, in wire order; none for a query form (R74, R80). -/
def Instr.payload : Instr → List Byte
  | .rdFreq _ _ => []
  | .rdMode _ _ => []
  | .setFreq _ _ f0 f1 f2 f3 f4 => [f0, f1, f2, f3, f4]
  | .setMode _ _ mm => [mm]
  | .setModeFil _ _ mm ff => [mm, ff]
  | .setVfo _ _ vv => [vv]
  | .spltQ _ _ => []
  | .spltS _ _ bb => [bb]
  | .attQ _ _ => []
  | .attS _ _ bb => [bb]
  | .lvlAfQ _ _ => []
  | .lvlAfS _ _ h l => [h, l]
  | .lvlRfQ _ _ => []
  | .lvlRfS _ _ h l => [h, l]
  | .lvlSqlQ _ _ => []
  | .lvlSqlS _ _ h l => [h, l]
  | .lvlNrQ _ _ => []
  | .lvlNrS _ _ h l => [h, l]
  | .lvlNbQ _ _ => []
  | .lvlNbS _ _ h l => [h, l]
  | .lvlPwrQ _ _ => []
  | .lvlPwrS _ _ h l => [h, l]
  | .lvlDnfQ _ _ => []
  | .lvlDnfS _ _ h l => [h, l]
  | .funcPreampQ _ _ => []
  | .funcPreampS _ _ bb => [bb]
  | .funcAgcQ _ _ => []
  | .funcAgcS _ _ bb => [bb]
  | .funcNbQ _ _ => []
  | .funcNbS _ _ bb => [bb]
  | .funcNrQ _ _ => []
  | .funcNrS _ _ bb => [bb]
  | .funcDnfQ _ _ => []
  | .funcDnfS _ _ bb => [bb]
  | .rdTrxid _ _ => []
  | .memWidthQ _ _ => []
  | .pttQ _ _ => []
  | .pttS _ _ bb => [bb]
  | .atuQ _ _ => []
  | .atuS _ _ bb => [bb]
  | .selFreqQ _ _ _ => []
  | .selFreqS _ _ _ f0 f1 f2 f3 f4 => [f0, f1, f2, f3, f4]
  | .selModeQ _ _ _ => []
  | .selModeS _ _ _ mm dd ff => [mm, dd, ff]

/-- The bytes of a request, in wire order (R71, R80). -/
def encode (cfg : Config) (i : Instr) : List Byte :=
  [preByte, preByte, i.addrs.1, i.addrs.2] ++ i.handler.head cfg ++ i.payload ++ [endByte]

/-! Well-formed configurations (R7). -/

/-- No two bytes of the list are equal. -/
def distinctBytes : List Byte → Bool
  | [] => true
  | b :: bs => !bs.contains b && distinctBytes bs

/-- The sub-codes of a family's table, in its order. -/
def subCodes (cfg : Config) (f : Family) : List Byte :=
  (f.route cfg).handlers.filterMap (fun h => h.sub cfg)

/-- MODE_CODE as a list, LSB first (R200). -/
def modeCodes (cfg : Config) : List Byte :=
  [codeLsb, cfg.modeUsb, cfg.modeAm, cfg.modeCw, cfg.modeNfm, cfg.modeCwr]

/-- R7, and that WIDTH_DIGITS is in the codec's domain `n >= 1` (42_bcd_codec.md R152; DEDUCED, safe, log 5). -/
def Config.wf (cfg : Config) : Bool :=
  distinctBytes (Family.all.map (cmdCode cfg))
    && (Family.all.map (cmdCode cfg)).all (fun b => b != preByte && b != endByte && b != ackCode && b != 0xFF#8)
    && Family.all.all (fun f => distinctBytes (subCodes cfg f))
    && distinctBytes (modeCodes cfg)
    && decide (1 ≤ cfg.widthDigits)

/-- No sub-code is END. R7 does not ask it, but a SUB byte that is END cannot be sent: the frame would end there (R72).
A premise of the encoder's laws, not of the machine (DEDUCED, safe, log 16). -/
def Config.sendable (cfg : Config) : Bool :=
  Family.all.all (fun f => clearOfEnd (subCodes cfg f))

/-! The opcode table's words. -/

/-- The bytes of a little-endian number of `n` bytes: the first byte is bits 7..0. -/
def wordBytes : Nat → Nat → List Byte
  | 0, _ => []
  | n + 1, w => BitVec.ofNat 8 w :: wordBytes n (w / 256)

/-- The bytes up to and including the first END (R70). -/
def uptoEnd : List Byte → List Byte
  | [] => []
  | b :: bs => if b = endByte then [b] else b :: uptoEnd bs

/-- The frame a table word stands for. The table's `match` and `mask` run from CMD to END (R81), its `encoding` from the
first PRE: a word that opens with PRE PRE is a whole frame, any other is put behind `FE FE 00 00` (DESIGN CHOICE, safe:
0xFE is no command code by R7; log 13). -/
def tableFrame (nbits w : Nat) : List Byte :=
  let bs := wordBytes (nbits / 8) w
  match bs with
  | p0 :: p1 :: _ => uptoEnd (if p0 = preByte ∧ p1 = preByte then bs else [preByte, preByte, 0#8, 0#8] ++ bs)
  | _ => uptoEnd ([preByte, preByte, 0#8, 0#8] ++ bs)

/-- The instruction the decoder reads from a table word, at the default codes (R76, R77); none where the word holds no END
within its bits or its frame decodes to no instruction. -/
def decodeTableWord (nbits w : Nat) : Option Instr :=
  let frame := tableFrame nbits w
  if frame.getLast? = some endByte then
    match decodeFrame Config.defaults frame with
    | .ok i => some i
    | .error _ => none
  else none

end Sys2Proof
end

