-- ==== Sys2Proof/Machine/Bcd.lean ====
section
/-! DEFINITION. The BCD codec, four pure functions (42_bcd_codec.md R150 to R159). -/

namespace Sys2Proof.Machine

/-- `hi(b)`, the high nibble (R8). -/
def hiNibble (b : Byte) : Nat := b.toNat / 16

/-- `lo(b)`, the low nibble (R8). -/
def loNibble (b : Byte) : Nat := b.toNat % 16

/-- A byte's two digits at face value, 0 to 15 each (R158). -/
def pairValue (b : Byte) : Nat := hiNibble b * 10 + loNibble b

/-- A byte of two digits. -/
def digitPair (h l : Nat) : Byte := BitVec.ofNat 8 (h * 16 + l)

/-- Digit `j` of `w`, of weight `10^j`. -/
def digit (w j : Nat) : Nat := w / 10 ^ j % 10

/-- The value of digit pairs, the first pair the least significant. -/
def lowFirstValue : List Byte → Nat
  | [] => 0
  | b :: bs => lowFirstValue bs * 100 + pairValue b

/-- The value of digit pairs after `v`, the first pair the most significant. -/
def highFirstValue (v : Nat) (bs : List Byte) : Nat := bs.foldl (fun acc b => acc * 100 + pairValue b) v

/-- R151 `decode_low_first(bytes, n)`, for even `n`: byte `i` holds digit `2i` in its low nibble. -/
def decodeLowFirst (bytes : List Byte) (n : Nat) : Nat := lowFirstValue (bytes.take (n / 2))

/-- R153 `decode_high_first(bytes, n)`: an odd `n` takes the low nibble of byte 0 alone (D20). -/
def decodeHighFirst (bytes : List Byte) (n : Nat) : Nat :=
  if n % 2 = 0 then highFirstValue 0 (bytes.take (n / 2))
  else
    match bytes.take ((n + 1) / 2) with
    | [] => 0
    | b :: bs => highFirstValue (loNibble b) bs

/-- R152 `encode_high_first(v, n)`: the low `n` digits (R157), most significant pair first; an odd `n` puts the leftover
digit alone in the low nibble of byte 0. -/
def encodeHighFirst (v n : Nat) : List Byte :=
  let w := v % 10 ^ n
  if n % 2 = 0 then
    (List.range (n / 2)).map (fun i => digitPair (digit w (n - 1 - 2 * i)) (digit w (n - 2 - 2 * i)))
  else
    digitPair 0 (digit w (n - 1)) ::
      (List.range (n / 2)).map (fun i => digitPair (digit w (n - 2 - 2 * i)) (digit w (n - 3 - 2 * i)))

/-- R154 `encode_low_first(v, n)`, for even `n`: the low `n` digits (R157), least significant pair first. -/
def encodeLowFirst (v n : Nat) : List Byte :=
  let w := v % 10 ^ n
  (List.range (n / 2)).map (fun i => digitPair (digit w (2 * i + 1)) (digit w (2 * i)))

end Sys2Proof.Machine
end

