-- ==== Sys2Proof/Machine/Translators.lean ====
section
/-! DEFINITION. The mode and VFO translators (44_mode_translator.md R200 to R204). -/

namespace Sys2Proof.Machine

/-- R201 `to_internal(code, data)`; `none` where the byte is no mode code. -/
def toInternal (cfg : Config) (code : Byte) (data : Bool) : Option InternalMode :=
  if code = codeLsb then some (if data then .lsbDig else .lsb)
  else if code = cfg.modeUsb then some (if data then .usbDig else .usb)
  else if code = cfg.modeAm then some .am
  else if code = cfg.modeCw then some .cw
  else if code = cfg.modeNfm then some .nfm
  else if code = cfg.modeCwr then some .cwr
  else none

/-- R202 `to_protocol(m)`: the mode code and the data flag; a mode the protocol cannot name falls back to LSB. -/
def toProtocol (cfg : Config) : InternalMode → Byte × Bool
  | .lsb => (codeLsb, false)
  | .lsbDig => (codeLsb, true)
  | .usb => (cfg.modeUsb, false)
  | .usbDig => (cfg.modeUsb, true)
  | .am => (cfg.modeAm, false)
  | .cw => (cfg.modeCw, false)
  | .nfm => (cfg.modeNfm, false)
  | .cwr => (cfg.modeCwr, false)
  | .other _ => (0x00#8, false)

/-- The data flag as a wire byte (R223, D33). -/
def dataByte (d : Bool) : Byte := if d then 0x01#8 else 0x00#8

/-- R204: a VFO byte; `none` where the byte has no meaning. -/
def vfoOf (cfg : Config) (b : Byte) : Option Vfo :=
  if b = cfg.vfoA then some .a else if b = cfg.vfoB then some .b else none

/-- R204 in reverse: the byte of a VFO. No answer of R80 carries one. -/
def vfoByte (cfg : Config) : Vfo → Byte
  | .a => cfg.vfoA
  | .b => cfg.vfoB

end Sys2Proof.Machine
end

