-- ==== Sys2Proof/Machine/Operands.lean ====
section
/-! DEFINITION. The operand fields and their assembly from frame bytes (30_encoding.md R78, R79). FILT8 is ignored on input
and RAW8 passes unchanged, so neither has a function here; the selector `ww` is a sub-command, read by the decoder. -/

namespace Sys2Proof.Machine

/-- FREQ10: five bytes, low digit first (R79, R151), as the unsigned FREQ_BITS-bit integer of the ports (D4; the reduction
is the identity at the default 64, R155; DEDUCED, log 6). -/
def operandFreq10 (cfg : Config) (f0 f1 f2 f3 f4 : Byte) : Nat :=
  decodeLowFirst [f0, f1, f2, f3, f4] 10 % 2 ^ cfg.freqBits

/-- LVL4: two bytes, high digit first (R79, R153). -/
def operandLvl4 (h l : Byte) : Nat := decodeHighFirst [h, l] 4

/-- MODE8 with its data flag (R79, R201). -/
def operandMode8 (cfg : Config) (mm : Byte) (data : Bool) : Option InternalMode := toInternal cfg mm data

/-- DATA8 (R245): 0x00 is false, 0x01 is true, any other byte none. -/
def operandData8 (dd : Byte) : Option Bool :=
  if dd = 0x00#8 then some false else if dd = 0x01#8 then some true else none

/-- VFO8 (R79, R204). -/
def operandVfo8 (cfg : Config) (vv : Byte) : Option Vfo := vfoOf cfg vv

end Sys2Proof.Machine
end

