-- ==== Sys2Proof/Machine/State.lean ====
section
/-! DEFINITION. The machine's state (10_state.md R21 to R23, R35, R39), its parameters (R27), the environment's inputs
(R29 to R31, R351), the reasons a step stops, and reset (R36, 70_reset_and_hazards.md R340). -/

namespace Sys2Proof.Machine

/-- The buffer's contents: the cells that are not 0x00, indices strictly rising. An index not listed reads 0x00, the
spec's zero fill (R36, R104). -/
abbrev Memory := List Host.Cell

/-- The first byte index outside `buf` is `maxFrame` (R22); no listed cell is 0x00; indices rise strictly from `lo`. -/
def Memory.wfFrom : Nat → Memory → Bool
  | _, [] => true
  | lo, (i, b) :: rest => decide (lo ≤ i) && decide (i < maxFrame) && b != 0#8 && Memory.wfFrom (i + 1) rest

/-- The canonical form: equal buffers are equal lists. -/
def Memory.wf (m : Memory) : Bool := Memory.wfFrom 0 m

/-- `phase` (R21); FAULTED keeps its reason `NativeOutOfRange(f, v)` (R35). -/
inductive Phase where
  | accum
  | dispatch
  | halted
  | faulted (f : LevelField) (v : Int)
deriving DecidableEq, Repr

/-- The environment's inputs, as plain data: what the next `RxNext()` calls and the next queries of each answer type give
(R30, R31; a launch is RX bytes and draws, R351). Where a list is empty the result is a free value of `Config`, numbered by
the counters `polls` and `draws` (log 2). -/
structure Env where
  rx : List (Option Byte)
  freqs : List Nat
  modes : List InternalMode
  vfos : List Vfo
  levels : List Int
  toggles : List Byte
  widths : List Nat
  polls : Nat
  draws : Nat
deriving DecidableEq, Repr

/-- Nothing given: every RX result and every answer is a free value. -/
def Env.free : Env :=
  { rx := [], freqs := [], modes := [], vfos := [], levels := [], toggles := [], widths := [], polls := 0, draws := 0 }

/-- The machine. `phase`, `buf` and `len` are the block's state (R21), `trace` its observable behaviour (R39), `cfg` its
parameters (R27), `env` the inputs it has yet to read (the model's own field). -/
structure State where
  cfg : Config
  phase : Phase
  buf : Memory
  len : Nat
  trace : List Event
  env : Env
deriving DecidableEq, Repr

/-- Why a step stops with a fault. -/
inductive Fault where
  /-- The block is FAULTED and has no step (R35, R306); raised by `step` alone, in the phase that the level handlers of R172
  enter. Safe: the spec's software has no such stop (D27). -/
  | nativeOutOfRange (f : LevelField) (v : Int)
  /-- A buffer index outside 0..255, which does not exist (R22, R50); raised by the reader and the dispatcher in states that
  no run reaches (R23). Safe. -/
  | noSuchIndex (i : Nat)
deriving DecidableEq, Repr

/-- Why a step is refused. -/
inductive Refusal where
  /-- An instruction whose meaning is not written. No arm raises it: every instruction has its meaning. Safe. -/
  | notModelled (mnemonic : String)
  /-- The block's parameters are not well formed (R7 "A model should refuse a configuration that is not well formed");
  raised by `step`. Safe. -/
  | illFormedConfig
  /-- The block never started: in HALTED no step exists (R108, R341); raised by `step`. Exact, so safe. -/
  | halted
deriving DecidableEq, Repr

/-- The three outcomes of a step of this machine. -/
abbrev Result := Host.Outcome State Fault Refusal

/-- Reset of a block built with `cfg` (R36, R340): zero-filled buffer, `len = 0`, an empty trace; ACCUM if INIT_OK, else
HALTED after the one event `Log(InitFailed)`. -/
def State.resetWith (cfg : Config) : State where
  cfg := cfg
  phase := if cfg.initOk then .accum else .halted
  buf := []
  len := 0
  trace := if cfg.initOk then [] else [.log .initFailed]
  env := Env.free

/-- Reset of the block with the spec's default parameters (R6; log 3, log 4). -/
def State.reset : State := State.resetWith Config.defaults

end Sys2Proof.Machine
end

