-- ==== Sys2Proof/Machine/Ops.lean ====
section
/-! DEFINITION. The named operations: the buffer (20_memory.md R50, R53, R54), the ports (10_state.md R30 to R34), the
results of a request and what each does (41_dispatcher.md R130 to R132, R135), the model fault (60_exceptions.md R306). -/

namespace Sys2Proof.Machine

/-! The buffer. -/

/-- The byte at an index: an index not listed reads 0x00. -/
def Memory.byteAt : Memory → Nat → Byte
  | [], _ => 0#8
  | (i, b) :: rest, a => if i = a then b else Memory.byteAt rest a

/-- The cell `(a, b)` in front of `rest`, or nothing where `b` is what an unlisted index reads as. -/
def Memory.cons (a : Nat) (b : Byte) (rest : Memory) : Memory := if b = 0#8 then rest else (a, b) :: rest

/-- `buf[a] <- b`, keeping the canonical form. -/
def Memory.put : Memory → Nat → Byte → Memory
  | [], a, b => Memory.cons a b []
  | (i, c) :: rest, a, b =>
    if a < i then Memory.cons a b ((i, c) :: rest)
    else if a = i then Memory.cons a b rest
    else (i, c) :: Memory.put rest a b

/-- `MemRead(i, 1)` (R10); none where the index does not exist (R22). -/
def Memory.read (m : Memory) (i : Nat) : Option Byte := if i < maxFrame then some (m.byteAt i) else none

/-- `MemWrite(i, 1, b)` (R10); none where the index does not exist (R22). -/
def Memory.write (m : Memory) (i : Nat) (b : Byte) : Option Memory := if i < maxFrame then some (m.put i b) else none

/-- Every `buf[i] <- 0x00`. -/
def Memory.zeroFilled : Memory := []

/-- Bytes written from index `i` on, the rest zero. -/
def Memory.ofBytesFrom : Nat → List Byte → Memory
  | _, [] => []
  | i, b :: bs => Memory.cons i b (Memory.ofBytesFrom (i + 1) bs)

/-- `buf[0 .. n-1]` (R10, R120), in order. -/
def Memory.slice (m : Memory) (n : Nat) : List Byte := (List.range n).map m.byteAt

/-! The trace (R39). -/

/-- Append events to the trace. -/
def State.emit (s : State) (es : List Event) : State := { s with trace := s.trace ++ es }

/-- `Tx(seq)`: one event per byte, in order (R39, R52). -/
def State.transmit (s : State) (bytes : List Byte) : State := s.emit (bytes.map Event.tx)

/-- `Control(c)` (R32). -/
def State.control (s : State) (c : ControlCall) : State := s.emit [.ctl c]

/-- `Submit(m)` (R33). -/
def State.submit (s : State) (m : Mutation) : State := s.emit [.mut m]

/-- `Notify()` (R34). -/
def State.notify (s : State) : State := s.emit [.notify]

/-- `Log(r)` (R34). -/
def State.logEvent (s : State) (r : LogReason) : State := s.emit [.log r]

/-! The environment's answers (R31, D38): the head of the list for the answer's type, or a free value. -/

/-- `RxNext()` (R10): a byte or NONE; destructive (R54). It records nothing itself. -/
def State.rxNext (s : State) : Option Byte × State :=
  (s.env.rx.headD (Config.freeRx s.env.polls),
    { s with env := { s.env with rx := s.env.rx.tail, polls := s.env.polls + 1 } })

/-- `Query(FreqOf(w))`: an unsigned FREQ_BITS-bit integer (R31, D4). -/
def State.queryFreq (s : State) (w : VfoSel) : Nat × State :=
  let ans := s.env.freqs.headD (Config.freeFreq s.env.draws) % 2 ^ s.cfg.freqBits
  (ans, { s with
    trace := s.trace ++ [.qry (.freqOf w) (.freq ans)]
    env := { s.env with freqs := s.env.freqs.tail, draws := s.env.draws + 1 } })

/-- `Query(ModeOf(w))`. -/
def State.queryMode (s : State) (w : VfoSel) : InternalMode × State :=
  let ans := s.env.modes.headD (Config.freeMode s.env.draws)
  (ans, { s with
    trace := s.trace ++ [.qry (.modeOf w) (.mode ans)]
    env := { s.env with modes := s.env.modes.tail, draws := s.env.draws + 1 } })

/-- `Query(ActiveVfo)`. -/
def State.queryVfo (s : State) : Vfo × State :=
  let ans := s.env.vfos.headD (Config.freeVfo s.env.draws)
  (ans, { s with
    trace := s.trace ++ [.qry .activeVfo (.vfo ans)]
    env := { s.env with vfos := s.env.vfos.tail, draws := s.env.draws + 1 } })

/-- `Query(Level(f))`. -/
def State.queryLevel (s : State) (f : LevelField) : Int × State :=
  let ans := s.env.levels.headD (Config.freeLevel s.env.draws)
  (ans, { s with
    trace := s.trace ++ [.qry (.level f) (.level ans)]
    env := { s.env with levels := s.env.levels.tail, draws := s.env.draws + 1 } })

/-- `Query(ToggleState(t))`. -/
def State.queryToggle (s : State) (t : Toggle) : Byte × State :=
  let ans := s.env.toggles.headD (Config.freeToggle s.env.draws)
  (ans, { s with
    trace := s.trace ++ [.qry (.toggleState t) (.toggle ans)]
    env := { s.env with toggles := s.env.toggles.tail, draws := s.env.draws + 1 } })

/-- `Query(Width)`. -/
def State.queryWidth (s : State) : Nat × State :=
  let ans := s.env.widths.headD (Config.freeWidth s.env.draws)
  (ans, { s with
    trace := s.trace ++ [.qry .width (.width ans)]
    env := { s.env with widths := s.env.widths.tail, draws := s.env.draws + 1 } })

/-! How a request ends (R11, R120, R130 to R132). -/

/-- What a handler chooses (R11). -/
inductive Reply where
  | ack
  | nak (r : NakReason)
  | answer (payload : List Byte)
  | fault (f : LevelField) (v : Int)
deriving DecidableEq, Repr

/-- The response header `[PRE, PRE, req[3], DEVICE_ADDR]` (R125). -/
def responseHeader (src : Byte) : List Byte := [preByte, preByte, src, deviceAddr]

/-- `finish()` (R132): zero fill, `len = 0`, back to ACCUM. It is also the one return from every error (R307, R308). -/
def State.finish (s : State) : State := { s with buf := Memory.zeroFilled, len := 0, phase := .accum }

/-- A success acknowledgment, then `finish()` (R130, R132, R134). -/
def State.acknowledge (s : State) (src : Byte) : State :=
  (s.transmit (responseHeader src ++ [ackCode, endByte])).finish

/-- The protocol error, the block's one exception that is answered: `Log(reason)`, the NAK response, then `finish()`
(R130, R135, R302). No state is saved and no vector taken (R307). -/
def State.negativeAck (s : State) (src : Byte) (r : NakReason) : State :=
  ((s.logEvent (.nak r)).transmit (responseHeader src ++ [s.cfg.nakCode, endByte])).finish

/-- A data answer, then `finish()` (R130, R132). `head` is CMD and, where the family has one, SUB. -/
def State.answerWith (s : State) (src : Byte) (head payload : List Byte) : State :=
  (s.transmit (responseHeader src ++ head ++ payload ++ [endByte])).finish

/-- `raise Fault(NativeOutOfRange(f, v))` (R306): `phase <- FAULTED`; `buf`, `len` and the trace stay as they are. -/
def State.raiseFault (s : State) (f : LevelField) (v : Int) : State := { s with phase := .faulted f v }

/-- What a reply does (R120, R130 to R132, R306). -/
def State.settle (s : State) (src : Byte) (head : List Byte) : Reply → State
  | .ack => s.acknowledge src
  | .nak r => s.negativeAck src r
  | .answer payload => s.answerWith src head payload
  | .fault f v => s.raiseFault f v

/-- The end of the dispatch step after the handler has chosen its reply (R120). Entering FAULTED is a next state, as R306
describes it; the step that FAULTED does not have is the fault (log 9). -/
def conclude (src : Byte) (head : List Byte) (p : Reply × State) : Result := .next (p.2.settle src head p.1)

/-! The request in the buffer. -/

/-- The snapshot `req = buf[0 .. len-1]` (R120, R123); none where `len` reaches outside the buffer, which no run does
(R23). -/
def State.request (s : State) : Option (List Byte) := if s.len ≤ maxFrame then some (s.buf.slice s.len) else none

end Sys2Proof.Machine
end

