-- ==== Sys2Proof/Machine/Scaler.lean ====
section
/-! DEFINITION. The level scaler (43_level_scaler.md R170 to R184), exact on the integers (D5). -/

namespace Sys2Proof.Machine

/-- `ceil_div(a, b) = (a + b - 1) div b` (R9). -/
def ceilDiv (a b : Int) : Int := (a + b - 1) / b

/-- `roundup(x, m)` (R9). -/
def roundUp (x m : Int) : Int := ceilDiv x m * m

/-- `round_q(n, d)` under ROUND_TIES (R9, D22). HALF_UP is the spec's formula; the other two differ from it at ties only
(PRESUMED, log 7). -/
def roundQ (ties : RoundTies) (n d : Int) : Int :=
  match ties with
  | .halfUp => (2 * n + d) / (2 * d)
  | .halfDown => (2 * n + d - 1) / (2 * d)
  | .halfEven =>
    if (2 * n + d) % (2 * d) = 0 ∧ (2 * n + d) / (2 * d) % 2 = 1 then (2 * n + d) / (2 * d) - 1
    else (2 * n + d) / (2 * d)

/-- Division of a delta by its step under DIV_ROUNDING (R9 `tdiv`, D24; FLOOR: log 8). -/
def divDelta (rounding : DivRounding) (x d : Int) : Int :=
  match rounding with
  | .trunc => Int.tdiv x d
  | .floor => x / d

/-- `min` of the field's native range (R171). -/
def levelMin : LevelField → Int
  | .af => 0
  | .rf => 0
  | .sql => 0
  | .nr => 0
  | .nb => 0
  | .pwr => 0
  | .dnf => 100

/-- `max` of the value the query port answers; for PWR that is tenths `P`, up to 100 (R171, R172, D25). -/
def levelMax : LevelField → Int
  | .af => 55
  | .rf => 100
  | .sql => 100
  | .nr => 60
  | .nb => 100
  | .pwr => 100
  | .dnf => 3000

/-- The range precondition (R172). -/
def levelInRange (f : LevelField) (cur : Int) : Bool := decide (levelMin f ≤ cur) && decide (cur ≤ levelMax f)

/-- R174 `scale_query(f, cur)`. For PWR, `round_q(P*255, 100)`, which is the same formula on tenths. -/
def scaleQuery (ties : RoundTies) (f : LevelField) (cur : Int) : Int :=
  match f with
  | .pwr => roundQ ties (cur * 255) 100
  | _ => roundQ ties ((cur - levelMin f) * 255) (levelMax f - levelMin f)

/-- R176 to R180 `scale_set(f, s, cur)`: the argument of the control call. `s` is not clamped (R181). -/
def scaleSet (rounding : DivRounding) (f : LevelField) (s cur : Int) : Int :=
  match f with
  | .af => levelMin .af + ceilDiv (s * (levelMax .af - levelMin .af)) 255 - cur
  | .rf => levelMin .rf + ceilDiv (s * (levelMax .rf - levelMin .rf)) 255 - cur
  | .sql => levelMin .sql + ceilDiv (s * (levelMax .sql - levelMin .sql)) 255 - cur
  | .nr => divDelta rounding (ceilDiv (s * (levelMax .nr - levelMin .nr)) 255 - cur) 5
  | .nb => divDelta rounding (ceilDiv (s * (levelMax .nb - levelMin .nb)) 255 - cur) 5
  | .pwr => 10 * ceilDiv (s * 10) 255 - cur
  | .dnf => divDelta rounding (roundUp (ceilDiv (s * 2900) 255) 50 + 100 - cur) 50

end Sys2Proof.Machine
end

