-- ==== Sys2Proof/Machine/LevelCommands.lean ====
section
/-! DEFINITION. The level commands (47_level_function_commands.md R260 to R274, R294, R295). -/

namespace Sys2Proof.Machine

/-- The query form of R260: query, range check (R172), scale (R174), four digits, high digit first (R175). -/
def readLevel (f : LevelField) (s : State) : Reply × State :=
  let q := s.queryLevel f
  if levelInRange f q.1 then (.answer (encodeHighFirst (scaleQuery s.cfg.roundTies f q.1).toNat 4), q.2)
  else (.fault f q.1, q.2)

/-- The set form of R260: query, range check (R172), one `ApplyDelta` with the scaled delta, made even when it is 0 (D45). -/
def changeLevel (f : LevelField) (scaled : Nat) (s : State) : Reply × State :=
  let q := s.queryLevel f
  if levelInRange f q.1 then (.ack, q.2.control (.applyDelta f (scaleSet s.cfg.divRounding f scaled q.1)))
  else (.fault f q.1, q.2)

/-- LVL_AF_Q (R261). -/
def execLvlAfQ (_dst src : Byte) (s : State) : Result :=
  conclude src ((Handler.level .af).head s.cfg) (readLevel .af s)

/-- LVL_AF_S (R262). -/
def execLvlAfS (_dst src h l : Byte) (s : State) : Result :=
  conclude src ((Handler.level .af).head s.cfg) (changeLevel .af (operandLvl4 h l) s)

/-- LVL_RF_Q (R263). -/
def execLvlRfQ (_dst src : Byte) (s : State) : Result :=
  conclude src ((Handler.level .rf).head s.cfg) (readLevel .rf s)

/-- LVL_RF_S (R264). -/
def execLvlRfS (_dst src h l : Byte) (s : State) : Result :=
  conclude src ((Handler.level .rf).head s.cfg) (changeLevel .rf (operandLvl4 h l) s)

/-- LVL_SQL_Q (R265). -/
def execLvlSqlQ (_dst src : Byte) (s : State) : Result :=
  conclude src ((Handler.level .sql).head s.cfg) (readLevel .sql s)

/-- LVL_SQL_S (R266). -/
def execLvlSqlS (_dst src h l : Byte) (s : State) : Result :=
  conclude src ((Handler.level .sql).head s.cfg) (changeLevel .sql (operandLvl4 h l) s)

/-- LVL_NR_Q (R267). -/
def execLvlNrQ (_dst src : Byte) (s : State) : Result :=
  conclude src ((Handler.level .nr).head s.cfg) (readLevel .nr s)

/-- LVL_NR_S (R268). -/
def execLvlNrS (_dst src h l : Byte) (s : State) : Result :=
  conclude src ((Handler.level .nr).head s.cfg) (changeLevel .nr (operandLvl4 h l) s)

/-- LVL_NB_Q (R269). -/
def execLvlNbQ (_dst src : Byte) (s : State) : Result :=
  conclude src ((Handler.level .nb).head s.cfg) (readLevel .nb s)

/-- LVL_NB_S (R270). -/
def execLvlNbS (_dst src h l : Byte) (s : State) : Result :=
  conclude src ((Handler.level .nb).head s.cfg) (changeLevel .nb (operandLvl4 h l) s)

/-- LVL_PWR_Q (R271). -/
def execLvlPwrQ (_dst src : Byte) (s : State) : Result :=
  conclude src ((Handler.level .pwr).head s.cfg) (readLevel .pwr s)

/-- LVL_PWR_S (R272). -/
def execLvlPwrS (_dst src h l : Byte) (s : State) : Result :=
  conclude src ((Handler.level .pwr).head s.cfg) (changeLevel .pwr (operandLvl4 h l) s)

/-- LVL_DNF_Q (R273). -/
def execLvlDnfQ (_dst src : Byte) (s : State) : Result :=
  conclude src ((Handler.level .dnf).head s.cfg) (readLevel .dnf s)

/-- LVL_DNF_S (R274). -/
def execLvlDnfS (_dst src h l : Byte) (s : State) : Result :=
  conclude src ((Handler.level .dnf).head s.cfg) (changeLevel .dnf (operandLvl4 h l) s)

end Sys2Proof.Machine
end

