-- ==== Sys2Proof/Machine/MutatingCommands.lean ====
section
/-! DEFINITION. The state-mutating commands (46_mutating_commands.md R240 to R248): validate, query the current value, submit
one mutation if and only if it differs, acknowledge in any case. -/

namespace Sys2Proof.Machine

/-- Compare-then-submit for a frequency (R240, R242, R246). -/
def changeFreq (w : VfoSel) (hz : Nat) (s : State) : Reply × State :=
  let q := s.queryFreq w
  (.ack, if hz = q.1 then q.2 else q.2.submit (.setFreq w hz))

/-- Compare-then-submit for a mode; no mode is NAK(BadValue) before any query (R240, R243, R247). -/
def changeMode (w : VfoSel) (mode : Option InternalMode) (s : State) : Reply × State :=
  match mode with
  | none => (.nak .badValue, s)
  | some m =>
    let q := s.queryMode w
    (.ack, if m = q.1 then q.2 else q.2.submit (.setMode w m))

/-- Compare-then-submit for the active VFO; no VFO is NAK(BadValue) before any query (R240, R244). -/
def changeVfo (vfo : Option Vfo) (s : State) : Reply × State :=
  match vfo with
  | none => (.nak .badValue, s)
  | some v =>
    let q := s.queryVfo
    (.ack, if v = q.1 then q.2 else q.2.submit (.selectVfo v))

/-- SET_FREQ (R242). -/
def execSetFreq (_dst src f0 f1 f2 f3 f4 : Byte) (s : State) : Result :=
  conclude src (Handler.setFreq.head s.cfg) (changeFreq .selected (operandFreq10 s.cfg f0 f1 f2 f3 f4) s)

/-- SET_MODE (R243), 7 bytes; the data flag is false (D32). -/
def execSetMode (_dst src mm : Byte) (s : State) : Result :=
  conclude src (Handler.setMode.head s.cfg) (changeMode .selected (operandMode8 s.cfg mm false) s)

/-- SET_MODE_FIL (R243), 8 bytes: the filter byte is ignored. -/
def execSetModeFil (_dst src mm _ff : Byte) (s : State) : Result :=
  conclude src (Handler.setMode.head s.cfg) (changeMode .selected (operandMode8 s.cfg mm false) s)

/-- SET_VFO (R244). -/
def execSetVfo (_dst src vv : Byte) (s : State) : Result :=
  conclude src (Handler.setVfo.head s.cfg) (changeVfo (operandVfo8 s.cfg vv) s)

/-- SEL_FREQ_S (R246). -/
def execSelFreqS (_dst src : Byte) (w : VfoSel) (f0 f1 f2 f3 f4 : Byte) (s : State) : Result :=
  conclude src ((Handler.selFreq w).head s.cfg) (changeFreq w (operandFreq10 s.cfg f0 f1 f2 f3 f4) s)

/-- SEL_MODE_S (R247): the data byte is checked first, then the mode code; the filter byte is ignored. -/
def execSelModeS (_dst src : Byte) (w : VfoSel) (mm dd _ff : Byte) (s : State) : Result :=
  conclude src ((Handler.selMode w).head s.cfg)
    (changeMode w ((operandData8 dd).bind (fun d => operandMode8 s.cfg mm d)) s)

end Sys2Proof.Machine
end

