-- ==== Sys2Proof/Machine/ReadCommands.lean ====
section
/-! DEFINITION. The read-only commands (45_read_commands.md R220 to R226): each reads by queries alone and answers data. -/

namespace Sys2Proof.Machine

/-- The frequency of one VFO, 10 digits, low digit first (R220, R222). -/
def answerFreq (w : VfoSel) (s : State) : Reply × State :=
  let q := s.queryFreq w
  (.answer (encodeLowFirst q.1 10), q.2)

/-- RD_FREQ (R220). -/
def execRdFreq (_dst src : Byte) (s : State) : Result :=
  conclude src (Handler.rdFreq.head s.cfg) (answerFreq .selected s)

/-- RD_MODE (R221): the mode code and FILTER_CODE; the data flag is not sent. -/
def execRdMode (_dst src : Byte) (s : State) : Result :=
  let q := s.queryMode .selected
  conclude src (Handler.rdMode.head s.cfg) (.answer [(toProtocol s.cfg q.1).1, s.cfg.filterCode], q.2)

/-- SEL_FREQ_Q (R222). -/
def execSelFreqQ (_dst src : Byte) (w : VfoSel) (s : State) : Result :=
  conclude src ((Handler.selFreq w).head s.cfg) (answerFreq w s)

/-- SEL_MODE_Q (R223): the mode code, the data flag and FILTER_CODE. -/
def execSelModeQ (_dst src : Byte) (w : VfoSel) (s : State) : Result :=
  let q := s.queryMode w
  let c := toProtocol s.cfg q.1
  conclude src ((Handler.selMode w).head s.cfg) (.answer [c.1, dataByte c.2, s.cfg.filterCode], q.2)

/-- MEM_WIDTH_Q (R224): the width code in WIDTH_DIGITS digits, high digit first. -/
def execMemWidthQ (_dst src : Byte) (s : State) : Result :=
  let q := s.queryWidth
  conclude src (Handler.memWidth.head s.cfg) (.answer (encodeHighFirst q.1 s.cfg.widthDigits), q.2)

/-- RD_TRXID (R225): the device address, with no query. -/
def execRdTrxid (_dst src : Byte) (s : State) : Result :=
  conclude src (Handler.trxid.head s.cfg) (.answer [deviceAddr], s)

end Sys2Proof.Machine
end

