-- ==== Sys2Proof/Machine/ToggleCommands.lean ====
section
/-! DEFINITION. The toggle commands (47_level_function_commands.md R275 to R294): C_CTL_FUNC, C_CTL_PTT, C_CTL_ATT and
C_CTL_SPLT. The byte is raw in both directions (D28). -/

namespace Sys2Proof.Machine

/-- The query form of R275. -/
def readToggle (t : Toggle) (s : State) : Reply × State :=
  let q := s.queryToggle t
  (.answer [q.1], q.2)

/-- The set form of R275: the control call, then the notification (D37), then ACK. -/
def changeToggle (t : Toggle) (b : Byte) (s : State) : Reply × State :=
  (.ack, (s.control (.setToggle t b)).notify)

/-- FUNC_PREAMP_Q (R276). -/
def execFuncPreampQ (_dst src : Byte) (s : State) : Result :=
  conclude src ((Handler.toggle .preamp).head s.cfg) (readToggle .preamp s)

/-- FUNC_PREAMP_S (R277). -/
def execFuncPreampS (_dst src bb : Byte) (s : State) : Result :=
  conclude src ((Handler.toggle .preamp).head s.cfg) (changeToggle .preamp bb s)

/-- FUNC_AGC_Q (R278). -/
def execFuncAgcQ (_dst src : Byte) (s : State) : Result :=
  conclude src ((Handler.toggle .agc).head s.cfg) (readToggle .agc s)

/-- FUNC_AGC_S (R279). -/
def execFuncAgcS (_dst src bb : Byte) (s : State) : Result :=
  conclude src ((Handler.toggle .agc).head s.cfg) (changeToggle .agc bb s)

/-- FUNC_NB_Q (R280). -/
def execFuncNbQ (_dst src : Byte) (s : State) : Result :=
  conclude src ((Handler.toggle .nbOn).head s.cfg) (readToggle .nbOn s)

/-- FUNC_NB_S (R281). -/
def execFuncNbS (_dst src bb : Byte) (s : State) : Result :=
  conclude src ((Handler.toggle .nbOn).head s.cfg) (changeToggle .nbOn bb s)

/-- FUNC_NR_Q (R282). -/
def execFuncNrQ (_dst src : Byte) (s : State) : Result :=
  conclude src ((Handler.toggle .nrOn).head s.cfg) (readToggle .nrOn s)

/-- FUNC_NR_S (R283). -/
def execFuncNrS (_dst src bb : Byte) (s : State) : Result :=
  conclude src ((Handler.toggle .nrOn).head s.cfg) (changeToggle .nrOn bb s)

/-- FUNC_DNF_Q (R284). -/
def execFuncDnfQ (_dst src : Byte) (s : State) : Result :=
  conclude src ((Handler.toggle .dnfOn).head s.cfg) (readToggle .dnfOn s)

/-- FUNC_DNF_S (R285). -/
def execFuncDnfS (_dst src bb : Byte) (s : State) : Result :=
  conclude src ((Handler.toggle .dnfOn).head s.cfg) (changeToggle .dnfOn bb s)

/-- PTT_Q (R286). -/
def execPttQ (_dst src : Byte) (s : State) : Result :=
  conclude src ((Handler.toggle .ptt).head s.cfg) (readToggle .ptt s)

/-- PTT_S (R287). -/
def execPttS (_dst src bb : Byte) (s : State) : Result :=
  conclude src ((Handler.toggle .ptt).head s.cfg) (changeToggle .ptt bb s)

/-- ATU_Q (R288). -/
def execAtuQ (_dst src : Byte) (s : State) : Result :=
  conclude src ((Handler.toggle .atu).head s.cfg) (readToggle .atu s)

/-- ATU_S (R289). -/
def execAtuS (_dst src bb : Byte) (s : State) : Result :=
  conclude src ((Handler.toggle .atu).head s.cfg) (changeToggle .atu bb s)

/-- ATT_Q (R290). -/
def execAttQ (_dst src : Byte) (s : State) : Result :=
  conclude src ((Handler.toggle .att).head s.cfg) (readToggle .att s)

/-- ATT_S (R291). -/
def execAttS (_dst src bb : Byte) (s : State) : Result :=
  conclude src ((Handler.toggle .att).head s.cfg) (changeToggle .att bb s)

/-- SPLT_Q (R292). -/
def execSpltQ (_dst src : Byte) (s : State) : Result :=
  conclude src ((Handler.toggle .split).head s.cfg) (readToggle .split s)

/-- SPLT_S (R293). -/
def execSpltS (_dst src bb : Byte) (s : State) : Result :=
  conclude src ((Handler.toggle .split).head s.cfg) (changeToggle .split bb s)

end Sys2Proof.Machine
end

