-- ==== Sys2Proof/Machine/Dispatch.lean ====
section
/-! DEFINITION. One arm per instruction: the meaning of a request after the prologue of 41_dispatcher.md R120 to R125 (R11).
Every meaning takes all operands; none reads DST (R122) or FILT8 (R78). -/

namespace Sys2Proof.Machine

/-- The meaning of each instruction (R220 to R293). -/
def exec (i : Instr) (s : State) : Host.Outcome State Fault Refusal :=
  match i with
  | .rdFreq dst src => Sys2Proof.Machine.execRdFreq dst src s
  | .rdMode dst src => Sys2Proof.Machine.execRdMode dst src s
  | .setFreq dst src f0 f1 f2 f3 f4 => Sys2Proof.Machine.execSetFreq dst src f0 f1 f2 f3 f4 s
  | .setMode dst src mm => Sys2Proof.Machine.execSetMode dst src mm s
  | .setModeFil dst src mm ff => Sys2Proof.Machine.execSetModeFil dst src mm ff s
  | .setVfo dst src vv => Sys2Proof.Machine.execSetVfo dst src vv s
  | .spltQ dst src => Sys2Proof.Machine.execSpltQ dst src s
  | .spltS dst src bb => Sys2Proof.Machine.execSpltS dst src bb s
  | .attQ dst src => Sys2Proof.Machine.execAttQ dst src s
  | .attS dst src bb => Sys2Proof.Machine.execAttS dst src bb s
  | .lvlAfQ dst src => Sys2Proof.Machine.execLvlAfQ dst src s
  | .lvlAfS dst src h l => Sys2Proof.Machine.execLvlAfS dst src h l s
  | .lvlRfQ dst src => Sys2Proof.Machine.execLvlRfQ dst src s
  | .lvlRfS dst src h l => Sys2Proof.Machine.execLvlRfS dst src h l s
  | .lvlSqlQ dst src => Sys2Proof.Machine.execLvlSqlQ dst src s
  | .lvlSqlS dst src h l => Sys2Proof.Machine.execLvlSqlS dst src h l s
  | .lvlNrQ dst src => Sys2Proof.Machine.execLvlNrQ dst src s
  | .lvlNrS dst src h l => Sys2Proof.Machine.execLvlNrS dst src h l s
  | .lvlNbQ dst src => Sys2Proof.Machine.execLvlNbQ dst src s
  | .lvlNbS dst src h l => Sys2Proof.Machine.execLvlNbS dst src h l s
  | .lvlPwrQ dst src => Sys2Proof.Machine.execLvlPwrQ dst src s
  | .lvlPwrS dst src h l => Sys2Proof.Machine.execLvlPwrS dst src h l s
  | .lvlDnfQ dst src => Sys2Proof.Machine.execLvlDnfQ dst src s
  | .lvlDnfS dst src h l => Sys2Proof.Machine.execLvlDnfS dst src h l s
  | .funcPreampQ dst src => Sys2Proof.Machine.execFuncPreampQ dst src s
  | .funcPreampS dst src bb => Sys2Proof.Machine.execFuncPreampS dst src bb s
  | .funcAgcQ dst src => Sys2Proof.Machine.execFuncAgcQ dst src s
  | .funcAgcS dst src bb => Sys2Proof.Machine.execFuncAgcS dst src bb s
  | .funcNbQ dst src => Sys2Proof.Machine.execFuncNbQ dst src s
  | .funcNbS dst src bb => Sys2Proof.Machine.execFuncNbS dst src bb s
  | .funcNrQ dst src => Sys2Proof.Machine.execFuncNrQ dst src s
  | .funcNrS dst src bb => Sys2Proof.Machine.execFuncNrS dst src bb s
  | .funcDnfQ dst src => Sys2Proof.Machine.execFuncDnfQ dst src s
  | .funcDnfS dst src bb => Sys2Proof.Machine.execFuncDnfS dst src bb s
  | .rdTrxid dst src => Sys2Proof.Machine.execRdTrxid dst src s
  | .memWidthQ dst src => Sys2Proof.Machine.execMemWidthQ dst src s
  | .pttQ dst src => Sys2Proof.Machine.execPttQ dst src s
  | .pttS dst src bb => Sys2Proof.Machine.execPttS dst src bb s
  | .atuQ dst src => Sys2Proof.Machine.execAtuQ dst src s
  | .atuS dst src bb => Sys2Proof.Machine.execAtuS dst src bb s
  | .selFreqQ dst src w => Sys2Proof.Machine.execSelFreqQ dst src w s
  | .selFreqS dst src w f0 f1 f2 f3 f4 => Sys2Proof.Machine.execSelFreqS dst src w f0 f1 f2 f3 f4 s
  | .selModeQ dst src w => Sys2Proof.Machine.execSelModeQ dst src w s
  | .selModeS dst src w mm dd ff => Sys2Proof.Machine.execSelModeS dst src w mm dd ff s

end Sys2Proof.Machine
end

