-- ==== Sys2Proof/Machine/Reader.lean ====
section
/-! DEFINITION. The frame reader and synchronizer (40_frame_reader.md R100 to R109). -/

namespace Sys2Proof.Machine

/-- A byte arrives (R101): it is recorded and stored; END completes the frame, a 256th byte that is not END discards the
accumulation (R102), any other byte is counted. The END test comes first (D6). -/
def State.receive (s : State) (b : Byte) : Result :=
  match s.buf.write s.len b with
  | none => .fault (.noSuchIndex s.len)
  | some buf =>
    let s1 := s.emit [.rxByte b]
    if b = endByte then .next { s1 with buf := buf, len := s.len + 1, phase := .dispatch }
    else if s.len + 1 = maxFrame then .next { s1 with buf := Memory.zeroFilled, len := 0 }
    else .next { s1 with buf := buf, len := s.len + 1 }

/-- The reader step, in phase ACCUM: at most one `RxNext()` result. NONE changes nothing (R100). -/
def readerStep (s : State) : Result :=
  let r := s.rxNext
  match r.1 with
  | none => .next r.2
  | some b => r.2.receive b

end Sys2Proof.Machine
end

