-- ==== Sys2Proof/Machine/Dispatcher.lean ====
section
/-! DEFINITION. The dispatch step (41_dispatcher.md R120): framing check, echo, decoding, the meaning or the NAK. -/

namespace Sys2Proof.Machine

/-- The dispatch of a complete frame `req` (R120). A framing error is dropped with no event (R121); every other frame is
echoed first (R124), then answered: NAK where routing or validation fails (R126 to R128, R135), else by its meaning. The
header's SRC is `req[3]` (R125). -/
def dispatchFrame (req : List Byte) (s : State) : Result :=
  match decodeFrame s.cfg req with
  | .error .framing => .next s.finish
  | .error (.nak r) => .next ((s.transmit req).negativeAck (req.getD 3 0#8) r)
  | .ok i => exec i (s.transmit req)

/-- The dispatch step, in phase DISPATCH. -/
def dispatchStep (s : State) : Result :=
  match s.request with
  | none => .fault (.noSuchIndex maxFrame)
  | some req => dispatchFrame req s

/-- One step of a block whose parameters are well formed: the reader in ACCUM, the dispatcher in DISPATCH, no step in HALTED
and FAULTED (R108, R35). -/
def phaseStep (s : State) : Result :=
  match s.phase with
  | .accum => readerStep s
  | .dispatch => dispatchStep s
  | .halted => .refused .halted
  | .faulted f v => .fault (.nativeOutOfRange f v)

end Sys2Proof.Machine
end

