-- ==== Sys2Proof/Machine/Step.lean ====
section
/-! DEFINITION. One step of the machine, and where the host puts an instruction for the next step to run. -/

namespace Sys2Proof.Machine

/-- One step (D1). A configuration that is not well formed is refused (R7). -/
def step (s : State) : Host.Outcome State Fault Refusal :=
  if s.cfg.wf then phaseStep s else .refused .illFormedConfig

/-- `s` with the frame of a table word complete in the buffer, waiting for its dispatch step (R21 DISPATCH, R101): the state
the reader leaves when the frame's END has arrived. -/
def State.withFetchWord (s : State) (nbits w : Nat) : State :=
  let frame := tableFrame nbits w
  { s with phase := .dispatch, buf := Memory.ofBytesFrom 0 frame, len := frame.length }

end Sys2Proof.Machine
end

