-- ==== Sys2Proof/Safety.lean ====
section
/-! DEFINITION. The terms in which claims speak of good states, runs and outputs: complete frames, the invariant every step
keeps, the end of a run, and what a trace sends. -/

namespace Sys2Proof.Machine

/-- A complete frame: it ends in END and holds no other END (30_encoding.md R70, R72; 40_frame_reader.md R103). -/
def isFrame (bs : List Byte) : Bool := bs.getLast? == some endByte && clearOfEnd bs.dropLast

/-- The bytes of a complete frame are dropped by the framing check (41_dispatcher.md R121, D8): fewer than 6, or not opened
by two PRE bytes. -/
def framingBad (bs : List Byte) : Bool :=
  decide (bs.length < 6) || decide (bs.getD 0 0#8 ≠ preByte) || decide (bs.getD 1 0#8 ≠ preByte)

/-- What holds of the buffer and the counter in each phase: the bounds of `len` (10_state.md R23), no END inside an
accumulation, a complete frame of at most 256 bytes in DISPATCH (R103), and the request kept in FAULTED beside a value that
is out of its field's range (R306). -/
def State.phaseInv (s : State) : Bool :=
  match s.phase with
  | .accum => decide (s.len < maxFrame) && clearOfEnd (s.buf.slice s.len)
  | .dispatch => decide (s.len ≤ maxFrame) && isFrame (s.buf.slice s.len)
  | .halted => decide (s.len = 0)
  | .faulted f v => decide (s.len ≤ maxFrame) && isFrame (s.buf.slice s.len) && !levelInRange f v

/-- The invariant of every reachable state: well-formed parameters (R7), the buffer in canonical form inside 0..255 (R22),
no byte but zero at `len` and above (R56, R104), and the phase's own part. -/
def State.inv (s : State) : Bool :=
  s.cfg.wf && s.buf.wf && s.buf.all (fun c => decide (c.1 < s.len)) && s.phaseInv

/-- Whether the launch's given RX bytes (R351) are all consumed: only NONE results are left (log 21). -/
def Env.noByteLeft (e : Env) : Bool := e.rx.all (fun r => r == none)

/-- The end of a run (70_reset_and_hazards.md R351): every byte of the launch is consumed, the phase is ACCUM, and the next
`RxNext()` returns NONE. -/
def State.runEnded (s : State) : Bool := s.env.noByteLeft && decide (s.phase = .accum) && s.rxNext.1 == none

/-- A run that reaches FAULTED has not ended and is refuted (R306). -/
def State.isFaulted (s : State) : Bool :=
  match s.phase with
  | .faulted _ _ => true
  | _ => false

/-- The bytes sent by an event (R39). -/
def Event.sent : Event → List Byte
  | .tx b => [b]
  | _ => []

/-- The bytes sent by a piece of trace, in order. -/
def sentBytes (es : List Event) : List Byte := es.flatMap Event.sent

/-- The mutation an event submits (R33). -/
def Event.submitted : Event → List Mutation
  | .mut m => [m]
  | _ => []

/-- The mutations submitted in a piece of trace, in order. -/
def submittedIn (es : List Event) : List Mutation := es.flatMap Event.submitted

/-- The control call an event makes (R32). -/
def Event.called : Event → List ControlCall
  | .ctl c => [c]
  | _ => []

/-- The control calls made in a piece of trace, in order. -/
def calledIn (es : List Event) : List ControlCall := es.flatMap Event.called

/-! What a claim about one dispatch compares with: the answers the environment is about to give, the inputs left after it
has given one, the response frames of 30_encoding.md R75 written out, and the state a completed dispatch leaves (R132). -/

/-- The next `FreqOf` answer (R31). -/
def State.nextFreq (s : State) : Nat := s.env.freqs.headD (Config.freeFreq s.env.draws) % 2 ^ s.cfg.freqBits

/-- The next `ModeOf` answer (R31). -/
def State.nextMode (s : State) : InternalMode := s.env.modes.headD (Config.freeMode s.env.draws)

/-- The next `ActiveVfo` answer (R31). -/
def State.nextVfo (s : State) : Vfo := s.env.vfos.headD (Config.freeVfo s.env.draws)

/-- The next `Level` answer (R31). -/
def State.nextLevel (s : State) : Int := s.env.levels.headD (Config.freeLevel s.env.draws)

/-- The next `ToggleState` answer (R31). -/
def State.nextToggle (s : State) : Byte := s.env.toggles.headD (Config.freeToggle s.env.draws)

/-- The next `Width` answer (R31). -/
def State.nextWidth (s : State) : Nat := s.env.widths.headD (Config.freeWidth s.env.draws)

/-- The inputs left after one frequency answer. -/
def Env.tookFreq (e : Env) : Env := { e with freqs := e.freqs.tail, draws := e.draws + 1 }

/-- The inputs left after one mode answer. -/
def Env.tookMode (e : Env) : Env := { e with modes := e.modes.tail, draws := e.draws + 1 }

/-- The inputs left after one VFO answer. -/
def Env.tookVfo (e : Env) : Env := { e with vfos := e.vfos.tail, draws := e.draws + 1 }

/-- The inputs left after one level answer. -/
def Env.tookLevel (e : Env) : Env := { e with levels := e.levels.tail, draws := e.draws + 1 }

/-- The inputs left after one toggle answer. -/
def Env.tookToggle (e : Env) : Env := { e with toggles := e.toggles.tail, draws := e.draws + 1 }

/-- The inputs left after one width answer. -/
def Env.tookWidth (e : Env) : Env := { e with widths := e.widths.tail, draws := e.draws + 1 }

/-- The inputs left after `n` polls of the serial source. -/
def Env.polled (e : Env) (n : Nat) : Env := { e with rx := e.rx.drop n, polls := e.polls + n }

/-- The ACK response (R75). -/
def ackFrame (src : Byte) : List Byte := [0xFE#8, 0xFE#8, src, 0xA4#8, 0xFB#8, 0xFD#8]

/-- The NAK response (R75, R302). -/
def nakFrame (cfg : Config) (src : Byte) : List Byte := [0xFE#8, 0xFE#8, src, 0xA4#8, cfg.nakCode, 0xFD#8]

/-- The ANSWER response (R75): `head` is CMD and, where the family has one, SUB. -/
def answerFrame (src : Byte) (head payload : List Byte) : List Byte :=
  [0xFE#8, 0xFE#8, src, 0xA4#8] ++ head ++ payload ++ [0xFD#8]

/-- How many payload bytes the data answer of a handler has (30_encoding.md R80, column "result"); none where the handler
answers no data. -/
def answerLength (cfg : Config) : Handler → Option Nat
  | .rdFreq => some 5
  | .rdMode => some 2
  | .setFreq => none
  | .setMode => none
  | .setVfo => none
  | .toggle _ => some 1
  | .level _ => some 2
  | .trxid => some 1
  | .memWidth => some ((cfg.widthDigits + 1) / 2)
  | .selFreq _ => some 5
  | .selMode _ => some 3

/-- The whole state after a dispatch that did not fault: the events and then the response on the trace, the inputs `env`
left, every byte of the buffer zero, `len = 0`, phase ACCUM (R131, R132), and nothing else changed. -/
def State.after (s : State) (env : Env) (events : List Event) (response : List Byte) : State :=
  { s with
    phase := .accum
    buf := []
    len := 0
    env := env
    trace := s.trace ++ events ++ response.map Event.tx }

/-- `n` steps, stopping at the first fault or refusal. -/
def State.run : Nat → State → Result
  | 0, s => .next s
  | n + 1, s =>
    match step s with
    | .next t => State.run n t
    | .fault r => .fault r
    | .refused r => .refused r

end Sys2Proof.Machine
end

