-- ==== Sys2Proof/Certificates/Slice0/Obligations.lean ====
section
/-! DEFINITION. The statements for the provers. Each docstring names the rules of spec/ that the statement formalises. The
statements about one request compare the whole next state with `State.after`, which changes the phase, the buffer, the counter,
the inputs and the trace and nothing else: their frame is in the equation. Every response frame is written out in bytes. -/

open Sys2Proof Sys2Proof.Machine

/-! ## Reset and the phases without a step -/

/-- R36: the reset state of a block with parameters `cfg`; every byte of the buffer reads 0x00. -/
def Obligations.ResetLeavesTheSpecValues : Prop :=
  ∀ cfg : Config,
    (∀ i < 256, (State.resetWith cfg).buf.read i = some 0x00#8) ∧ (State.resetWith cfg).len = 0
      ∧ (cfg.initOk = true → (State.resetWith cfg).phase = .accum ∧ (State.resetWith cfg).trace = [])
      ∧ (cfg.initOk = false → (State.resetWith cfg).phase = .halted
          ∧ (State.resetWith cfg).trace = [.log .initFailed])

/-- The invariant `State.inv` (R7, R22, R23, R56, R103, R306) holds at reset, for every well-formed configuration; the
default one (the model's choice where the spec gives only defaults, log 3 and log 4) is well formed. -/
def Obligations.ResetMeetsTheInvariant : Prop :=
  (∀ cfg : Config, cfg.wf = true → (State.resetWith cfg).inv = true) ∧ Config.defaults.wf = true
    ∧ Config.defaults.sendable = true ∧ State.reset.inv = true

/-- R108, R35, R343: HALTED and FAULTED have no step. That the model says so by a refusal and a fault is its choice (log 9,
log 18). -/
def Obligations.HaltedAndFaultedHaveNoStep : Prop :=
  ∀ s : State, s.cfg.wf = true →
    (s.phase = .halted → step s = .refused .halted)
      ∧ ∀ f v, s.phase = .faulted f v → step s = .fault (.nativeOutOfRange f v)

/-- R7, part by part, and the refusal of a configuration that is not well formed. `1 ≤ WIDTH_DIGITS` is the model's addition
(log 5). -/
def Obligations.IllFormedConfigurationsAreRefused : Prop :=
  (∀ cfg : Config, cfg.wf = true ↔
      (Family.all.map (cmdCode cfg)).Nodup
        ∧ (∀ f, cmdCode cfg f ∉ [0xFE#8, 0xFD#8, 0xFB#8, 0xFF#8])
        ∧ (∀ f, (subCodes cfg f).Nodup) ∧ (modeCodes cfg).Nodup ∧ 0x00#8 ∈ modeCodes cfg ∧ 1 ≤ cfg.widthDigits)
    ∧ ∀ s : State, s.cfg.wf = false → step s = .refused .illFormedConfig

/-! ## The frame reader -/

/-- R100: a poll that gives no byte changes nothing of the block and records nothing; only the input is consumed. -/
def Obligations.PollWithoutByteChangesNothing : Prop :=
  ∀ s : State, s.cfg.wf = true → s.phase = .accum → s.rxNext.1 = none →
    step s = .next { s with env := s.env.polled 1 }

/-- R351, R100, R306: a run has ended when no byte of the launch is left, the phase is ACCUM and the next `RxNext()` gives NONE
(log 21), and only then; the step that follows changes nothing of the block and records nothing; a run in FAULTED has not
ended. -/
def Obligations.AnEndedRunOnlyWaits : Prop :=
  ∀ s : State,
    (s.runEnded = true ↔ s.phase = .accum ∧ s.rxNext.1 = none ∧ ∀ b, some b ∉ s.env.rx)
      ∧ (s.runEnded = true → s.cfg.wf = true → step s = .next { s with env := s.env.polled 1 })
      ∧ (s.isFaulted = true → s.runEnded = false)

/-- R101, R102: a byte is recorded, then stored at `len`; END completes the frame, a 256th byte that is not END discards the
accumulation, any other byte is counted. Every other byte of the buffer stays. -/
def Obligations.ByteIsStoredCountedOrDiscarded : Prop :=
  ∀ (s : State) (b : Byte), s.cfg.wf = true → s.phase = .accum → s.buf.wf = true → s.len ≤ 255 →
    s.rxNext.1 = some b →
    ∃ t, step s = .next t ∧ t.cfg = s.cfg ∧ t.env = s.env.polled 1 ∧ t.trace = s.trace ++ [.rxByte b]
      ∧ (if b = 0xFD#8 then
          t.phase = .dispatch ∧ t.len = s.len + 1
            ∧ ∀ i < 256, t.buf.read i = if i = s.len then some b else s.buf.read i
        else if s.len + 1 = 256 then
          t.phase = .accum ∧ t.len = 0 ∧ ∀ i < 256, t.buf.read i = some 0x00#8
        else
          t.phase = .accum ∧ t.len = s.len + 1
            ∧ ∀ i < 256, t.buf.read i = if i = s.len then some b else s.buf.read i)

/-- R103: only an END byte takes the block from ACCUM to DISPATCH. -/
def Obligations.OnlyEndStartsADispatch : Prop :=
  ∀ s t : State, s.phase = .accum → step s = .next t → t.phase ≠ .accum →
    t.phase = .dispatch ∧ s.rxNext.1 = some 0xFD#8

/-- R101, R103, R70: any complete frame of at most 256 bytes, given byte by byte at a frame boundary, is the request of the
dispatch that follows, and nothing but its bytes is recorded. -/
def Obligations.CompleteFrameReachesTheDispatcher : Prop :=
  ∀ (s : State) (bs : List Byte) (later : List (Option Byte)),
    s.cfg.wf = true → s.phase = .accum → s.buf = [] → s.len = 0 → isFrame bs = true → bs.length ≤ 256 →
    s.env.rx = bs.map some ++ later →
    ∃ t, State.run bs.length s = .next t ∧ t.cfg = s.cfg ∧ t.phase = .dispatch ∧ t.len = bs.length
      ∧ t.request = some bs ∧ t.trace = s.trace ++ bs.map Event.rxByte ∧ t.env = s.env.polled bs.length

/-- R106: bytes without END leave `len = k mod 256`, the last `k mod 256` of them in the buffer, and send nothing. (The rule's
count of discards is not state; this statement does not make it.) -/
def Obligations.StreamWithoutEndOnlyAccumulates : Prop :=
  ∀ (s : State) (bs : List Byte) (later : List (Option Byte)),
    s.cfg.wf = true → s.phase = .accum → s.buf = [] → s.len = 0 → clearOfEnd bs = true →
    s.env.rx = bs.map some ++ later →
    ∃ t, State.run bs.length s = .next t ∧ t.cfg = s.cfg ∧ t.phase = .accum ∧ t.len = bs.length % 256
      ∧ t.buf.slice t.len = bs.drop (bs.length / 256 * 256)
      ∧ t.trace = s.trace ++ bs.map Event.rxByte ∧ t.env = s.env.polled bs.length

/-- R317, R105, R107: after any bytes without END and then one END, the garbage whose remainder at that END is itself a
well-framed request left out (that request is answered too, R107), the read-frequency request `FE FE A4 E0 03 FD` is answered in full, and the block is at a frame boundary again. -/
def Obligations.GarbageThenEndThenRequestIsAnswered : Prop :=
  ∀ (s : State) (g : List Byte) (later : List (Option Byte)),
    s.cfg.wf = true → s.phase = .accum → s.buf = [] → s.len = 0 → clearOfEnd g = true →
    framingBad (g.drop (g.length / 256 * 256) ++ [0xFD#8]) = true →
    s.env.rx = (g ++ [0xFD#8]).map some ++ [0xFE#8, 0xFE#8, 0xA4#8, 0xE0#8, 0x03#8, 0xFD#8].map some ++ later →
    State.run (g.length + 9) s = .next (s.after ((s.env.polled (g.length + 7)).tookFreq)
      ((g ++ [0xFD#8, 0xFE#8, 0xFE#8, 0xA4#8, 0xE0#8, 0x03#8, 0xFD#8]).map Event.rxByte
        ++ [0xFE#8, 0xFE#8, 0xA4#8, 0xE0#8, 0x03#8, 0xFD#8].map Event.tx
        ++ [.qry (.freqOf .selected) (.freq s.nextFreq)])
      ([0xFE#8, 0xFE#8, 0xE0#8, 0xA4#8, 0x03#8] ++ encodeLowFirst s.nextFreq 10 ++ [0xFD#8]))

/-! ## The dispatcher -/

/-- R120, R124: when the frame in the buffer decodes to `i`, the step is the echo and then the meaning of `i`. -/
def Obligations.StepRunsTheDecodedInstruction : Prop :=
  ∀ (s : State) (req : List Byte) (i : Instr),
    s.cfg.wf = true → s.phase = .dispatch → s.request = some req → decodeFrame s.cfg req = .ok i →
    step s = exec i (s.transmit req)

/-- R121: a frame of fewer than 6 bytes, or not opened by two PRE bytes, is dropped with no event. -/
def Obligations.FramingErrorIsDropped : Prop :=
  ∀ (s : State) (req : List Byte),
    s.cfg.wf = true → s.phase = .dispatch → s.request = some req →
    (req.length < 6 ∨ req.getD 0 0#8 ≠ 0xFE#8 ∨ req.getD 1 0#8 ≠ 0xFE#8) →
    step s = .next (s.after s.env [] [])

/-- R124, R135, R302: a frame that routing or validation rejects is echoed, logged and answered NAK, and the block goes on. -/
def Obligations.RejectedRequestIsAnsweredNak : Prop :=
  ∀ (s : State) (req : List Byte) (r : NakReason),
    s.cfg.wf = true → s.phase = .dispatch → s.request = some req → decodeFrame s.cfg req = .error (.nak r) →
    step s = .next (s.after s.env (req.map Event.tx ++ [.log (.nak r)])
      [0xFE#8, 0xFE#8, req.getD 3 0#8, 0xA4#8, s.cfg.nakCode, 0xFD#8])

/-- R126: CMD is `req[4]`; no equal code is UnknownCommand, and an equal code selects its family, one at most. -/
def Obligations.CommandRouting : Prop :=
  ∀ (cfg : Config) (dst src cmd x : Byte) (rest : List Byte), cfg.wf = true →
    ((∀ f, cmdCode cfg f ≠ cmd) →
        decodeFrame cfg (0xFE#8 :: 0xFE#8 :: dst :: src :: cmd :: x :: rest) = .error (.nak .unknownCommand))
      ∧ (∀ f, cmdCode cfg f = cmd →
        decodeFrame cfg (0xFE#8 :: 0xFE#8 :: dst :: src :: cmd :: x :: rest) = decodeRouted cfg dst src f x rest)
      ∧ (∀ f g, cmdCode cfg f = cmd → cmdCode cfg g = cmd → f = g)

/-- R127: in a family with a sub-command, a missing or unknown SUB byte is UnknownSub, and an equal sub-code selects its
handler. -/
def Obligations.SubCommandRouting : Prop :=
  ∀ (cfg : Config) (dst src sub x : Byte) (rest : List Byte) (f : Family) (hs : List Handler),
    cfg.wf = true → f.route cfg = .bySub hs →
    decodeRouted cfg dst src f 0xFD#8 [] = .error (.nak .unknownSub)
      ∧ ((∀ h ∈ hs, h.sub cfg ≠ some sub) → decodeRouted cfg dst src f sub (x :: rest) = .error (.nak .unknownSub))
      ∧ ∀ h ∈ hs, h.sub cfg = some sub → decodeRouted cfg dst src f sub (x :: rest) = decodeForm dst src h (x :: rest)

/-- R74, R128, R80, R302: for a request whose CMD and SUB are a handler's own, the form is a query when no payload byte
stands before END; a query on SET_FREQ, SET_MODE and SET_VFO and a set on RD_FREQ, RD_MODE, RD_TRXID and MEM_WIDTH are
BadForm; a set payload of another length than R80 gives is BadLength; every other request decodes to an instruction of that
handler with that payload. -/
def Obligations.FormAndLengthValidation : Prop :=
  ∀ (cfg : Config) (dst src : Byte) (h : Handler) (payload : List Byte),
    cfg.wf = true → clearOfEnd payload = true →
    let answer := decodeFrame cfg ([0xFE#8, 0xFE#8, dst, src] ++ h.head cfg ++ payload ++ [0xFD#8])
    let setLengths : List Nat :=
      match h with
      | .setFreq => [5]
      | .setMode => [1, 2]
      | .setVfo => [1]
      | .toggle _ => [1]
      | .level _ => [2]
      | .selFreq _ => [5]
      | .selMode _ => [3]
      | _ => []
    if payload = [] then
      if h = .setFreq ∨ h = .setMode ∨ h = .setVfo then answer = .error (.nak .badForm)
      else ∃ i, answer = .ok i ∧ i.addrs = (dst, src) ∧ i.handler = h ∧ i.payload = []
    else if setLengths = [] then answer = .error (.nak .badForm)
    else if payload.length ∈ setLengths then
      ∃ i, answer = .ok i ∧ i.addrs = (dst, src) ∧ i.handler = h ∧ i.payload = payload
    else answer = .error (.nak .badLength)

/-- R133: a framing error sends nothing; every other frame gives its echo first and then exactly one response, unless the block
faults, and then only the echo is sent. The response is the ACK of a set, a NAK, or the data answer of a query: the request's
SRC as destination, the CMD and SUB of the decoded handler, and as many payload bytes as R80 gives that handler. -/
def Obligations.OneEchoThenOneResponse : Prop :=
  ∀ (s t : State) (req : List Byte),
    s.phase = .dispatch → s.request = some req → step s = .next t →
    (framingBad req = true ∧ t.trace = s.trace)
      ∨ (framingBad req = false ∧ ∃ es, sentBytes es = [] ∧
          ((t.phase = .accum ∧ ∃ r, t.trace = s.trace ++ req.map Event.tx ++ es ++ r.map Event.tx
              ∧ ((r = ackFrame (req.getD 3 0#8) ∧ ∃ i, decodeFrame s.cfg req = .ok i ∧ i.payload ≠ [])
                ∨ r = nakFrame s.cfg (req.getD 3 0#8)
                ∨ ∃ i payload, decodeFrame s.cfg req = .ok i ∧ i.payload = []
                  ∧ r = answerFrame (req.getD 3 0#8) (i.handler.head s.cfg) payload
                  ∧ answerLength s.cfg i.handler = some payload.length))
            ∨ (t.isFaulted = true ∧ t.trace = s.trace ++ req.map Event.tx ++ es)))

/-- R122: two requests that differ in DST alone have the same events after their echoes and leave the same block. -/
def Obligations.DestinationIsNeverExamined : Prop :=
  ∀ (s : State) (d1 d2 src cmd x : Byte) (rest : List Byte),
    ∃ (t1 t2 : State) (es : List Event),
      dispatchFrame (0xFE#8 :: 0xFE#8 :: d1 :: src :: cmd :: x :: rest) s = .next t1
        ∧ dispatchFrame (0xFE#8 :: 0xFE#8 :: d2 :: src :: cmd :: x :: rest) s = .next t2
        ∧ t1.trace = s.trace ++ (0xFE#8 :: 0xFE#8 :: d1 :: src :: cmd :: x :: rest).map Event.tx ++ es
        ∧ t2 = { t1 with trace := s.trace ++ (0xFE#8 :: 0xFE#8 :: d2 :: src :: cmd :: x :: rest).map Event.tx ++ es }

/-! ## Encoding -/

/-- R80, R71: decoding the encoding of a well-formed instruction gives it back, for every instruction and every well-formed
configuration whose sub-codes can be sent. -/
def Obligations.DecodeOfEncode : Prop :=
  ∀ (cfg : Config) (i : Instr), cfg.wf = true → cfg.sendable = true → i.wf = true →
    decodeFrame cfg (encode cfg i) = .ok i

/-- R80, R76, R77, row by row: the frame that opens with the codes of a row (parameters of R6) and holds operand bytes other
than END decodes to that row's instruction, with each operand in its place. -/
def Obligations.EveryRowDecodesToItsInstruction : Prop :=
  ∀ (cfg : Config) (dst src a b c d e : Byte), cfg.wf = true → clearOfEnd [a, b, c, d, e] = true →
    let reads (codes operands : List Byte) (i : Instr) : Prop :=
      decodeFrame cfg ([0xFE#8, 0xFE#8, dst, src] ++ codes ++ operands ++ [0xFD#8]) = .ok i
    reads [0x03#8] [] (.rdFreq dst src)
      ∧ reads [cfg.cRdMode] [] (.rdMode dst src)
      ∧ reads [0x05#8] [a, b, c, d, e] (.setFreq dst src a b c d e)
      ∧ reads [cfg.cSetMode] [a] (.setMode dst src a)
      ∧ reads [cfg.cSetMode] [a, b] (.setModeFil dst src a b)
      ∧ reads [cfg.cSetVfo] [a] (.setVfo dst src a)
      ∧ reads (cfg.cCtlSplt :: (cfg.attSpltSubs.map (fun x => x.splt)).toList) [] (.spltQ dst src)
      ∧ reads (cfg.cCtlSplt :: (cfg.attSpltSubs.map (fun x => x.splt)).toList) [a] (.spltS dst src a)
      ∧ reads (cfg.cCtlAtt :: (cfg.attSpltSubs.map (fun x => x.att)).toList) [] (.attQ dst src)
      ∧ reads (cfg.cCtlAtt :: (cfg.attSpltSubs.map (fun x => x.att)).toList) [a] (.attS dst src a)
      ∧ reads [cfg.cCtlLvl, cfg.subLvlAf] [] (.lvlAfQ dst src)
      ∧ reads [cfg.cCtlLvl, cfg.subLvlAf] [a, b] (.lvlAfS dst src a b)
      ∧ reads [cfg.cCtlLvl, cfg.subLvlRf] [] (.lvlRfQ dst src)
      ∧ reads [cfg.cCtlLvl, cfg.subLvlRf] [a, b] (.lvlRfS dst src a b)
      ∧ reads [cfg.cCtlLvl, cfg.subLvlSql] [] (.lvlSqlQ dst src)
      ∧ reads [cfg.cCtlLvl, cfg.subLvlSql] [a, b] (.lvlSqlS dst src a b)
      ∧ reads [cfg.cCtlLvl, cfg.subLvlNr] [] (.lvlNrQ dst src)
      ∧ reads [cfg.cCtlLvl, cfg.subLvlNr] [a, b] (.lvlNrS dst src a b)
      ∧ reads [cfg.cCtlLvl, cfg.subLvlNb] [] (.lvlNbQ dst src)
      ∧ reads [cfg.cCtlLvl, cfg.subLvlNb] [a, b] (.lvlNbS dst src a b)
      ∧ reads [cfg.cCtlLvl, cfg.subLvlPwr] [] (.lvlPwrQ dst src)
      ∧ reads [cfg.cCtlLvl, cfg.subLvlPwr] [a, b] (.lvlPwrS dst src a b)
      ∧ reads [cfg.cCtlLvl, cfg.subLvlDnf] [] (.lvlDnfQ dst src)
      ∧ reads [cfg.cCtlLvl, cfg.subLvlDnf] [a, b] (.lvlDnfS dst src a b)
      ∧ reads [cfg.cCtlFunc, cfg.subFuncPreamp] [] (.funcPreampQ dst src)
      ∧ reads [cfg.cCtlFunc, cfg.subFuncPreamp] [a] (.funcPreampS dst src a)
      ∧ reads [cfg.cCtlFunc, cfg.subFuncAgc] [] (.funcAgcQ dst src)
      ∧ reads [cfg.cCtlFunc, cfg.subFuncAgc] [a] (.funcAgcS dst src a)
      ∧ reads [cfg.cCtlFunc, cfg.subFuncNb] [] (.funcNbQ dst src)
      ∧ reads [cfg.cCtlFunc, cfg.subFuncNb] [a] (.funcNbS dst src a)
      ∧ reads [cfg.cCtlFunc, cfg.subFuncNr] [] (.funcNrQ dst src)
      ∧ reads [cfg.cCtlFunc, cfg.subFuncNr] [a] (.funcNrS dst src a)
      ∧ reads [cfg.cCtlFunc, cfg.subFuncDnf] [] (.funcDnfQ dst src)
      ∧ reads [cfg.cCtlFunc, cfg.subFuncDnf] [a] (.funcDnfS dst src a)
      ∧ reads [cfg.cCtlPtt, cfg.subPtt] [] (.pttQ dst src)
      ∧ reads [cfg.cCtlPtt, cfg.subPtt] [a] (.pttS dst src a)
      ∧ reads [cfg.cCtlPtt, cfg.subAtu] [] (.atuQ dst src)
      ∧ reads [cfg.cCtlPtt, cfg.subAtu] [a] (.atuS dst src a)
      ∧ reads [cfg.cRdTrxid, cfg.subTrxid] [] (.rdTrxid dst src)
      ∧ reads [cfg.cCtlMem, cfg.subMemWidth] [] (.memWidthQ dst src)
      ∧ reads [cfg.cSendSelFreq, cfg.subSelSelected] [] (.selFreqQ dst src .selected)
      ∧ reads [cfg.cSendSelFreq, cfg.subSelSelected] [a, b, c, d, e] (.selFreqS dst src .selected a b c d e)
      ∧ reads [cfg.cSendSelMode, cfg.subSelSelected] [] (.selModeQ dst src .selected)
      ∧ reads [cfg.cSendSelMode, cfg.subSelSelected] [a, b, c] (.selModeS dst src .selected a b c)
      ∧ reads [cfg.cSendSelFreq, cfg.subSelUnselected] [] (.selFreqQ dst src .unselected)
      ∧ reads [cfg.cSendSelFreq, cfg.subSelUnselected] [a, b, c, d, e] (.selFreqS dst src .unselected a b c d e)
      ∧ reads [cfg.cSendSelMode, cfg.subSelUnselected] [] (.selModeQ dst src .unselected)
      ∧ reads [cfg.cSendSelMode, cfg.subSelUnselected] [a, b, c] (.selModeS dst src .unselected a b c)

/-- R81, R80: a complete frame that decodes to an instruction is that instruction's encoding, byte for byte, and the
instruction is well formed. -/
def Obligations.EncodeOfDecode : Prop :=
  ∀ (cfg : Config) (bs : List Byte) (i : Instr), isFrame bs = true → decodeFrame cfg bs = .ok i →
    encode cfg i = bs ∧ i.wf = true

/-- One frame of R80 for each of the 14 command families, at the default codes (the CI-V family's, log 3), written out from the
spec's encodings. -/
def Obligations.SampleFramesDecode : Prop :=
  decodeFrame Config.defaults
      [0xFE#8, 0xFE#8, 0xA4#8, 0xE0#8, 0x03#8, 0xFD#8] = .ok (.rdFreq 0xA4#8 0xE0#8)
    ∧ decodeFrame Config.defaults
      [0xFE#8, 0xFE#8, 0xA4#8, 0xE0#8, 0x04#8, 0xFD#8] = .ok (.rdMode 0xA4#8 0xE0#8)
    ∧ decodeFrame Config.defaults
      [0xFE#8, 0xFE#8, 0xA4#8, 0xE0#8, 0x05#8, 0x00#8, 0x00#8, 0x25#8, 0x14#8, 0x00#8, 0xFD#8] = .ok (.setFreq 0xA4#8 0xE0#8 0x00#8 0x00#8 0x25#8 0x14#8 0x00#8)
    ∧ decodeFrame Config.defaults
      [0xFE#8, 0xFE#8, 0xA4#8, 0xE0#8, 0x06#8, 0x01#8, 0xFD#8] = .ok (.setMode 0xA4#8 0xE0#8 0x01#8)
    ∧ decodeFrame Config.defaults
      [0xFE#8, 0xFE#8, 0xA4#8, 0xE0#8, 0x07#8, 0x01#8, 0xFD#8] = .ok (.setVfo 0xA4#8 0xE0#8 0x01#8)
    ∧ decodeFrame Config.defaults
      [0xFE#8, 0xFE#8, 0xA4#8, 0xE0#8, 0x0F#8, 0x01#8, 0xFD#8] = .ok (.spltS 0xA4#8 0xE0#8 0x01#8)
    ∧ decodeFrame Config.defaults
      [0xFE#8, 0xFE#8, 0xA4#8, 0xE0#8, 0x11#8, 0xFD#8] = .ok (.attQ 0xA4#8 0xE0#8)
    ∧ decodeFrame Config.defaults
      [0xFE#8, 0xFE#8, 0xA4#8, 0xE0#8, 0x14#8, 0x0D#8, 0x01#8, 0x28#8, 0xFD#8] = .ok (.lvlDnfS 0xA4#8 0xE0#8 0x01#8 0x28#8)
    ∧ decodeFrame Config.defaults
      [0xFE#8, 0xFE#8, 0xA4#8, 0xE0#8, 0x16#8, 0x12#8, 0xFD#8] = .ok (.funcAgcQ 0xA4#8 0xE0#8)
    ∧ decodeFrame Config.defaults
      [0xFE#8, 0xFE#8, 0xA4#8, 0xE0#8, 0x19#8, 0x00#8, 0xFD#8] = .ok (.rdTrxid 0xA4#8 0xE0#8)
    ∧ decodeFrame Config.defaults
      [0xFE#8, 0xFE#8, 0xA4#8, 0xE0#8, 0x1A#8, 0x03#8, 0xFD#8] = .ok (.memWidthQ 0xA4#8 0xE0#8)
    ∧ decodeFrame Config.defaults
      [0xFE#8, 0xFE#8, 0xA4#8, 0xE0#8, 0x1C#8, 0x01#8, 0x01#8, 0xFD#8] = .ok (.atuS 0xA4#8 0xE0#8 0x01#8)
    ∧ decodeFrame Config.defaults
      [0xFE#8, 0xFE#8, 0xA4#8, 0xE0#8, 0x25#8, 0x00#8, 0xFD#8] = .ok (.selFreqQ 0xA4#8 0xE0#8 .selected)
    ∧ decodeFrame Config.defaults
      [0xFE#8, 0xFE#8, 0xA4#8, 0xE0#8, 0x26#8, 0x01#8, 0x01#8, 0x00#8, 0x02#8, 0xFD#8] = .ok (.selModeS 0xA4#8 0xE0#8 .unselected 0x01#8 0x00#8 0x02#8)

/-! ## The BCD codec -/

/-- R156: the two encoders and decoders are inverse, in both directions, for 4 and 10 digits. -/
def Obligations.BcdRoundTrip : Prop :=
  ∀ n, n = 4 ∨ n = 10 →
    (∀ d < 10 ^ n, decodeHighFirst (encodeHighFirst d n) n = d ∧ decodeLowFirst (encodeLowFirst d n) n = d)
      ∧ ∀ bs : List Byte, bs.length = n / 2 → (∀ b ∈ bs, hiNibble b ≤ 9 ∧ loNibble b ≤ 9) →
        encodeHighFirst (decodeHighFirst bs n) n = bs ∧ encodeLowFirst (decodeLowFirst bs n) n = bs

/-- R155: the range of both decoders, for any bytes and for bytes whose nibbles are digits. -/
def Obligations.BcdDecoderRange : Prop :=
  ∀ (n : Nat) (bs : List Byte), n % 2 = 0 → bs.length = n / 2 →
    9 * decodeLowFirst bs n ≤ 15 * (10 ^ n - 1) ∧ 9 * decodeHighFirst bs n ≤ 15 * (10 ^ n - 1)
      ∧ ((∀ b ∈ bs, hiNibble b ≤ 9 ∧ loNibble b ≤ 9) →
        decodeLowFirst bs n ≤ 10 ^ n - 1 ∧ decodeHighFirst bs n ≤ 10 ^ n - 1)
      ∧ (n = 10 → decodeLowFirst bs n ≤ 16666666665 ∧ decodeLowFirst bs n < 2 ^ 64)
      ∧ (n = 4 → decodeHighFirst bs n ≤ 16665)

/-- R152, R154, R157: the encoders give the low `n` digits of the value, the high-first one for every `n ≥ 1`, the low-first one
for every even `n`: their bytes decode to `v mod 10^n`. The number of bytes is the digit count halved, rounded up; each byte is
two digits, so none is END or PRE; an odd count leaves the high nibble of byte 0 zero. -/
def Obligations.BcdEncodersTruncateToDigits : Prop :=
  ∀ v n : Nat, 1 ≤ n →
    encodeHighFirst v n = encodeHighFirst (v % 10 ^ n) n
      ∧ (encodeHighFirst v n).length = (n + 1) / 2
      ∧ decodeHighFirst (encodeHighFirst v n) n = v % 10 ^ n
      ∧ (∀ b ∈ encodeHighFirst v n, hiNibble b ≤ 9 ∧ loNibble b ≤ 9 ∧ b ≠ 0xFD#8 ∧ b ≠ 0xFE#8)
      ∧ (n % 2 = 1 → hiNibble ((encodeHighFirst v n).getD 0 0#8) = 0)
      ∧ (n % 2 = 0 →
        encodeLowFirst v n = encodeLowFirst (v % 10 ^ n) n
          ∧ (encodeLowFirst v n).length = n / 2
          ∧ decodeLowFirst (encodeLowFirst v n) n = v % 10 ^ n
          ∧ ∀ b ∈ encodeLowFirst v n, hiNibble b ≤ 9 ∧ loNibble b ≤ 9 ∧ b ≠ 0xFD#8 ∧ b ≠ 0xFE#8)

/-- R151, R153, R158: the value of the decoders on any bytes. Every nibble counts at face value, 0 to 15, at the weight of its
place; an odd digit count takes the low nibble of byte 0 alone. -/
def Obligations.BcdDecodersTakeNibblesAtFaceValue : Prop :=
  ∀ (n : Nat) (bs : List Byte), bs.length = (n + 1) / 2 →
    let pair (j : Nat) : Nat := (bs.getD j 0#8).toNat / 16 * 10 + (bs.getD j 0#8).toNat % 16
    (n % 2 = 0 →
        decodeLowFirst bs n = ∑ i ∈ Finset.range (n / 2), pair i * 100 ^ i
          ∧ decodeHighFirst bs n = ∑ i ∈ Finset.range (n / 2), pair (n / 2 - 1 - i) * 100 ^ i)
      ∧ (n % 2 = 1 →
        decodeHighFirst bs n
          = (bs.getD 0 0#8).toNat % 16 * 100 ^ (n / 2) + ∑ i ∈ Finset.range (n / 2), pair (n / 2 - i) * 100 ^ i)

/-! ## The level scaler -/

/-- R174, R175: an in-range value scales to 0..255, the bottom of the range to 0 and the top to 255, under every tie rule; the
wire bytes of the result open with 00, 01 or 02. -/
def Obligations.ScaleQuerySpansTheWireScale : Prop :=
  ∀ (ties : RoundTies) (f : LevelField) (cur : Int), levelInRange f cur = true →
    0 ≤ scaleQuery ties f cur ∧ scaleQuery ties f cur ≤ 255
      ∧ scaleQuery ties f (levelMin f) = 0 ∧ scaleQuery ties f (levelMax f) = 255
      ∧ ∃ b0 b1, encodeHighFirst (scaleQuery ties f cur).toNat 4 = [b0, b1] ∧ b0.toNat ≤ 2

/-- R173: the bounds of every intermediate value and of the control-call arguments, for any decoded `s` and any in-range
value, under both division rules. -/
def Obligations.ScalerArgumentBounds : Prop :=
  ∀ (rounding : DivRounding) (f : LevelField) (h l : Byte) (cur : Int), levelInRange f cur = true →
    let s : Int := operandLvl4 h l
    let arg := scaleSet rounding f s cur
    s ≤ 16665 ∧ s * (levelMax f - levelMin f) ≤ 48328500 ∧ (cur - levelMin f) * 255 ≤ 739500
      ∧ (match f with
        | .af => -55 ≤ arg ∧ arg ≤ 3595
        | .rf => -100 ≤ arg ∧ arg ≤ 6536
        | .sql => -100 ≤ arg ∧ arg ≤ 6536
        | .nr => -12 ≤ arg ∧ arg ≤ 784
        | .nb => -20 ≤ arg ∧ arg ≤ 1307
        | .pwr => -100 ≤ arg ∧ arg ≤ 6540
        | .dnf => -58 ≤ arg ∧ arg ≤ 3791)

/-- R182: setting a level to the value just queried moves it by at most one quantization step, under every tie and division
rule. -/
def Obligations.QueryThenSetWithinOneStep : Prop :=
  ∀ (ties : RoundTies) (rounding : DivRounding) (f : LevelField) (cur : Int), levelInRange f cur = true →
    let s := scaleQuery ties f cur
    match f with
    | .af => scaleSet rounding .af s cur = 0 ∨ scaleSet rounding .af s cur = 1
    | .rf => scaleSet rounding .rf s cur = 0 ∨ scaleSet rounding .rf s cur = 1
    | .sql => scaleSet rounding .sql s cur = 0 ∨ scaleSet rounding .sql s cur = 1
    | .nr => (ceilDiv (s * 60) 255 - cur = 0 ∨ ceilDiv (s * 60) 255 - cur = 1) ∧ scaleSet rounding .nr s cur = 0
    | .nb => (ceilDiv (s * 100) 255 - cur = 0 ∨ ceilDiv (s * 100) 255 - cur = 1) ∧ scaleSet rounding .nb s cur = 0
    | .pwr => 0 ≤ scaleSet rounding .pwr s cur ∧ scaleSet rounding .pwr s cur ≤ 10
    | .dnf => cur % 50 = 0 →
        roundUp (ceilDiv (s * 2900) 255) 50 + 100 - cur = 0 ∨ roundUp (ceilDiv (s * 2900) 255) 50 + 100 - cur = 50

/-- R179: for a DNF value on the 50 Hz grid, rounding the target and rounding the delta give the same delta. -/
def Obligations.DnfRoundingFormsAgreeOnTheGrid : Prop :=
  ∀ s cur : Int, cur % 50 = 0 →
    roundUp (ceilDiv (s * 2900) 255) 50 + 100 - cur = roundUp (ceilDiv (s * 2900) 255 + 100 - cur) 50

/-! ## The mode translator -/

/-- R200, R201, R202, R203: each mode has its own code of MODE_CODE and data flag, a byte that is none of
the six codes is no mode, a mode the protocol cannot name reads as plain LSB, and the two translators are inverse where they are
defined. -/
def Obligations.ModeTranslatorsAreInverse : Prop :=
  ∀ cfg : Config, cfg.wf = true →
    (∀ m : InternalMode, (∀ n, m ≠ .other n) → toInternal cfg (toProtocol cfg m).1 (toProtocol cfg m).2 = some m)
      ∧ (∀ (c : Byte) (d : Bool) (m : InternalMode), toInternal cfg c d = some m →
        toProtocol cfg m = (c, if c = 0x00#8 ∨ c = cfg.modeUsb then d else false))
      ∧ toProtocol cfg .lsb = (0x00#8, false) ∧ toProtocol cfg .lsbDig = (0x00#8, true)
      ∧ toProtocol cfg .usb = (cfg.modeUsb, false) ∧ toProtocol cfg .usbDig = (cfg.modeUsb, true)
      ∧ toProtocol cfg .am = (cfg.modeAm, false) ∧ toProtocol cfg .cw = (cfg.modeCw, false)
      ∧ toProtocol cfg .nfm = (cfg.modeNfm, false) ∧ toProtocol cfg .cwr = (cfg.modeCwr, false)
      ∧ (∀ n, toProtocol cfg (.other n) = (0x00#8, false))
      ∧ (∀ d, toInternal cfg 0x00#8 d = some (if d then .lsbDig else .lsb)
        ∧ toInternal cfg cfg.modeUsb d = some (if d then .usbDig else .usb)
        ∧ toInternal cfg cfg.modeAm d = some .am ∧ toInternal cfg cfg.modeCw d = some .cw
        ∧ toInternal cfg cfg.modeNfm d = some .nfm ∧ toInternal cfg cfg.modeCwr d = some .cwr)
      ∧ ∀ (c : Byte) (d : Bool),
        c ∉ [0x00#8, cfg.modeUsb, cfg.modeAm, cfg.modeCw, cfg.modeNfm, cfg.modeCwr] → toInternal cfg c d = none

/-- R204: where the two VFO codes differ (log 20), a VFO's byte names it and a byte that names a VFO is its byte, so that a byte
that is neither code names none; 0x00 is VFO A and 0x01 is VFO B at the default codes (log 3); and the same for the selectors of
the 25 and 26 commands, which are sub-commands. -/
def Obligations.VfoTranslatorsAreInverse : Prop :=
  ∀ cfg : Config, cfg.vfoA ≠ cfg.vfoB →
    (∀ v : Vfo, vfoOf cfg (vfoByte cfg v) = some v)
      ∧ (∀ (b : Byte) (v : Vfo), vfoOf cfg b = some v → vfoByte cfg v = b)
      ∧ vfoByte cfg .a = cfg.vfoA ∧ vfoByte cfg .b = cfg.vfoB
      ∧ (∀ b : Byte, b ≠ cfg.vfoA → b ≠ cfg.vfoB → vfoOf cfg b = none)
      ∧ vfoByte Config.defaults .a = 0x00#8 ∧ vfoByte Config.defaults .b = 0x01#8
      ∧ selSub cfg .selected = cfg.subSelSelected ∧ selSub cfg .unselected = cfg.subSelUnselected
      ∧ selSub Config.defaults .selected = 0x00#8 ∧ selSub Config.defaults .unselected = 0x01#8

/-! ## Read-only commands -/

/-- R220, R222: a frequency query reads one answer and sends it in 10 digits, low digit first. -/
def Obligations.FrequencyQueriesAnswer : Prop :=
  ∀ (s : State) (dst src : Byte) (w : VfoSel),
    exec (.rdFreq dst src) s = .next (s.after s.env.tookFreq [.qry (.freqOf .selected) (.freq s.nextFreq)]
        ([0xFE#8, 0xFE#8, src, 0xA4#8, 0x03#8] ++ encodeLowFirst s.nextFreq 10 ++ [0xFD#8]))
      ∧ exec (.selFreqQ dst src w) s = .next (s.after s.env.tookFreq [.qry (.freqOf w) (.freq s.nextFreq)]
        ([0xFE#8, 0xFE#8, src, 0xA4#8, s.cfg.cSendSelFreq,
          if w = .selected then s.cfg.subSelSelected else s.cfg.subSelUnselected] ++ encodeLowFirst s.nextFreq 10
          ++ [0xFD#8]))

/-- R221, R223: a mode query reads one answer and sends its code, with the data flag for SEL_MODE_Q only, and FILTER_CODE. -/
def Obligations.ModeQueriesAnswer : Prop :=
  ∀ (s : State) (dst src : Byte) (w : VfoSel),
    exec (.rdMode dst src) s = .next (s.after s.env.tookMode [.qry (.modeOf .selected) (.mode s.nextMode)]
        [0xFE#8, 0xFE#8, src, 0xA4#8, s.cfg.cRdMode, (toProtocol s.cfg s.nextMode).1, s.cfg.filterCode, 0xFD#8])
      ∧ exec (.selModeQ dst src w) s = .next (s.after s.env.tookMode [.qry (.modeOf w) (.mode s.nextMode)]
        [0xFE#8, 0xFE#8, src, 0xA4#8, s.cfg.cSendSelMode,
          if w = .selected then s.cfg.subSelSelected else s.cfg.subSelUnselected, (toProtocol s.cfg s.nextMode).1,
          if (toProtocol s.cfg s.nextMode).2 then 0x01#8 else 0x00#8, s.cfg.filterCode, 0xFD#8])

/-- R224, R225: the width query sends WIDTH_DIGITS digits, high digit first; the ID query sends the device address and asks
nothing. -/
def Obligations.WidthAndIdQueriesAnswer : Prop :=
  ∀ (s : State) (dst src : Byte),
    exec (.memWidthQ dst src) s = .next (s.after s.env.tookWidth [.qry .width (.width s.nextWidth)]
        ([0xFE#8, 0xFE#8, src, 0xA4#8, s.cfg.cCtlMem, s.cfg.subMemWidth]
          ++ encodeHighFirst s.nextWidth s.cfg.widthDigits ++ [0xFD#8]))
      ∧ exec (.rdTrxid dst src) s = .next (s.after s.env []
        [0xFE#8, 0xFE#8, src, 0xA4#8, s.cfg.cRdTrxid, s.cfg.subTrxid, 0xA4#8, 0xFD#8])

/-! ## State-mutating commands -/

/-- R242, R246, R240: a frequency set decodes its five bytes, compares with one answer, submits one mutation if and only if
they differ, and acknowledges in any case. FREQ_BITS reduces the decoded value (log 6); the default 64 never does. -/
def Obligations.FrequencySetsSubmitOnlyAChange : Prop :=
  ∀ (s : State) (dst src f0 f1 f2 f3 f4 : Byte) (w : VfoSel),
    let hz := decodeLowFirst [f0, f1, f2, f3, f4] 10 % 2 ^ s.cfg.freqBits
    exec (.setFreq dst src f0 f1 f2 f3 f4) s = .next (s.after s.env.tookFreq
        (.qry (.freqOf .selected) (.freq s.nextFreq) :: if hz = s.nextFreq then [] else [.mut (.setFreq .selected hz)])
        [0xFE#8, 0xFE#8, src, 0xA4#8, 0xFB#8, 0xFD#8])
      ∧ exec (.selFreqS dst src w f0 f1 f2 f3 f4) s = .next (s.after s.env.tookFreq
        (.qry (.freqOf w) (.freq s.nextFreq) :: if hz = s.nextFreq then [] else [.mut (.setFreq w hz)])
        [0xFE#8, 0xFE#8, src, 0xA4#8, 0xFB#8, 0xFD#8])
      ∧ (s.cfg.freqBits = 64 → hz = decodeLowFirst [f0, f1, f2, f3, f4] 10)

/-- R243: SET_MODE and SET_MODE_FIL, with the data flag false and the filter byte ignored; a byte that is no mode code is
NAK(BadValue) with no query. -/
def Obligations.ModeSetsSubmitOnlyAChange : Prop :=
  ∀ (s : State) (dst src mm ff : Byte),
    let done : State :=
      match toInternal s.cfg mm false with
      | none => s.after s.env [.log (.nak .badValue)] [0xFE#8, 0xFE#8, src, 0xA4#8, s.cfg.nakCode, 0xFD#8]
      | some m => s.after s.env.tookMode
          (.qry (.modeOf .selected) (.mode s.nextMode) ::
            if m = s.nextMode then [] else [.mut (.setMode .selected m)])
          [0xFE#8, 0xFE#8, src, 0xA4#8, 0xFB#8, 0xFD#8]
    exec (.setMode dst src mm) s = .next done ∧ exec (.setModeFil dst src mm ff) s = .next done

/-- R244: SET_VFO; a byte that names no VFO is NAK(BadValue) with no query. -/
def Obligations.VfoSetSubmitsOnlyAChange : Prop :=
  ∀ (s : State) (dst src vv : Byte),
    (∀ v : Vfo, (vv = s.cfg.vfoA ∧ v = .a) ∨ (vv ≠ s.cfg.vfoA ∧ vv = s.cfg.vfoB ∧ v = .b) →
      exec (.setVfo dst src vv) s = .next (s.after s.env.tookVfo
        (.qry .activeVfo (.vfo s.nextVfo) :: if v = s.nextVfo then [] else [.mut (.selectVfo v)])
        [0xFE#8, 0xFE#8, src, 0xA4#8, 0xFB#8, 0xFD#8]))
      ∧ (vv ≠ s.cfg.vfoA → vv ≠ s.cfg.vfoB →
        exec (.setVfo dst src vv) s = .next (s.after s.env [.log (.nak .badValue)]
          [0xFE#8, 0xFE#8, src, 0xA4#8, s.cfg.nakCode, 0xFD#8]))

/-- R245, R247: SEL_MODE_S; the data byte is checked before the mode code, and either failing is NAK(BadValue) with no
query; the filter byte is ignored. -/
def Obligations.SelectedModeSetSubmitsOnlyAChange : Prop :=
  ∀ (s : State) (dst src mm dd ff : Byte) (w : VfoSel),
    (∀ (d : Bool) (m : InternalMode), dd = (if d then 0x01#8 else 0x00#8) → toInternal s.cfg mm d = some m →
      exec (.selModeS dst src w mm dd ff) s = .next (s.after s.env.tookMode
        (.qry (.modeOf w) (.mode s.nextMode) :: if m = s.nextMode then [] else [.mut (.setMode w m)])
        [0xFE#8, 0xFE#8, src, 0xA4#8, 0xFB#8, 0xFD#8]))
      ∧ ((dd ≠ 0x00#8 ∧ dd ≠ 0x01#8) ∨ toInternal s.cfg mm (decide (dd = 0x01#8)) = none →
        exec (.selModeS dst src w mm dd ff) s = .next (s.after s.env [.log (.nak .badValue)]
          [0xFE#8, 0xFE#8, src, 0xA4#8, s.cfg.nakCode, 0xFD#8]))

/-! ## Level commands -/

/-- R260, R261, R263, R265, R267, R269, R271, R273, R174: the seven level queries, with an in-range answer, send the scaled
value rounded half up in 4 digits, high digit first. -/
def Obligations.LevelQueriesAnswer : Prop :=
  ∀ (s : State) (dst src : Byte) (cur : Int), s.nextLevel = cur → s.cfg.roundTies = .halfUp →
    let done (f : LevelField) (sub : Byte) (lo hi : Int) : State :=
      s.after s.env.tookLevel [.qry (.level f) (.level cur)]
        ([0xFE#8, 0xFE#8, src, 0xA4#8, s.cfg.cCtlLvl, sub]
          ++ encodeHighFirst ((2 * ((cur - lo) * 255) + (hi - lo)) / (2 * (hi - lo))).toNat 4 ++ [0xFD#8])
    (0 ≤ cur → cur ≤ 55 → exec (.lvlAfQ dst src) s = .next (done .af s.cfg.subLvlAf 0 55))
      ∧ (0 ≤ cur → cur ≤ 100 → exec (.lvlRfQ dst src) s = .next (done .rf s.cfg.subLvlRf 0 100))
      ∧ (0 ≤ cur → cur ≤ 100 → exec (.lvlSqlQ dst src) s = .next (done .sql s.cfg.subLvlSql 0 100))
      ∧ (0 ≤ cur → cur ≤ 60 → exec (.lvlNrQ dst src) s = .next (done .nr s.cfg.subLvlNr 0 60))
      ∧ (0 ≤ cur → cur ≤ 100 → exec (.lvlNbQ dst src) s = .next (done .nb s.cfg.subLvlNb 0 100))
      ∧ (0 ≤ cur → cur ≤ 100 → exec (.lvlPwrQ dst src) s = .next (done .pwr s.cfg.subLvlPwr 0 100))
      ∧ (100 ≤ cur → cur ≤ 3000 → exec (.lvlDnfQ dst src) s = .next (done .dnf s.cfg.subLvlDnf 100 3000))

/-- R260, R262, R264, R266, R268, R270, R272, R274, R176, R177, R178, R180, R181: the seven level sets, with an in-range answer
and DIV_ROUNDING = TRUNC, make one control call with the stated delta, of the unclamped `s`, and acknowledge. -/
def Obligations.LevelSetsApplyOneDelta : Prop :=
  ∀ (s : State) (dst src h l : Byte) (cur : Int), s.nextLevel = cur → s.cfg.divRounding = .trunc →
    let n : Int := decodeHighFirst [h, l] 4
    let done (f : LevelField) (arg : Int) : State :=
      s.after s.env.tookLevel [.qry (.level f) (.level cur), .ctl (.applyDelta f arg)]
        [0xFE#8, 0xFE#8, src, 0xA4#8, 0xFB#8, 0xFD#8]
    (0 ≤ cur → cur ≤ 55 → exec (.lvlAfS dst src h l) s = .next (done .af ((n * 55 + 254) / 255 - cur)))
      ∧ (0 ≤ cur → cur ≤ 100 → exec (.lvlRfS dst src h l) s = .next (done .rf ((n * 100 + 254) / 255 - cur)))
      ∧ (0 ≤ cur → cur ≤ 100 → exec (.lvlSqlS dst src h l) s = .next (done .sql ((n * 100 + 254) / 255 - cur)))
      ∧ (0 ≤ cur → cur ≤ 60 →
        exec (.lvlNrS dst src h l) s = .next (done .nr (Int.tdiv ((n * 60 + 254) / 255 - cur) 5)))
      ∧ (0 ≤ cur → cur ≤ 100 →
        exec (.lvlNbS dst src h l) s = .next (done .nb (Int.tdiv ((n * 100 + 254) / 255 - cur) 5)))
      ∧ (0 ≤ cur → cur ≤ 100 →
        exec (.lvlPwrS dst src h l) s = .next (done .pwr (10 * ((n * 10 + 254) / 255) - cur)))
      ∧ (100 ≤ cur → cur ≤ 3000 →
        exec (.lvlDnfS dst src h l) s
          = .next (done .dnf (Int.tdiv (((n * 2900 + 254) / 255 + 49) / 50 * 50 + 100 - cur) 50)))

/-- R172, R306, R35: a level answer outside the field's range makes either form fault: FAULTED with the field and the value,
the buffer and the counter kept, the trace ending with the query event, and nothing sent. That exec answers a next state, one in
FAULTED, is the model's choice (log 9). -/
def Obligations.LevelOutOfRangeFaults : Prop :=
  ∀ (s : State) (dst src h l : Byte) (cur : Int), s.nextLevel = cur →
    let dead (f : LevelField) : State :=
      { s with
        phase := .faulted f cur
        env := s.env.tookLevel
        trace := s.trace ++ [.qry (.level f) (.level cur)] }
    (cur < 0 ∨ 55 < cur →
        exec (.lvlAfQ dst src) s = .next (dead .af) ∧ exec (.lvlAfS dst src h l) s = .next (dead .af))
      ∧ (cur < 0 ∨ 100 < cur →
        exec (.lvlRfQ dst src) s = .next (dead .rf) ∧ exec (.lvlRfS dst src h l) s = .next (dead .rf)
          ∧ exec (.lvlSqlQ dst src) s = .next (dead .sql) ∧ exec (.lvlSqlS dst src h l) s = .next (dead .sql)
          ∧ exec (.lvlNbQ dst src) s = .next (dead .nb) ∧ exec (.lvlNbS dst src h l) s = .next (dead .nb)
          ∧ exec (.lvlPwrQ dst src) s = .next (dead .pwr) ∧ exec (.lvlPwrS dst src h l) s = .next (dead .pwr))
      ∧ (cur < 0 ∨ 60 < cur →
        exec (.lvlNrQ dst src) s = .next (dead .nr) ∧ exec (.lvlNrS dst src h l) s = .next (dead .nr))
      ∧ (cur < 100 ∨ 3000 < cur →
        exec (.lvlDnfQ dst src) s = .next (dead .dnf) ∧ exec (.lvlDnfS dst src h l) s = .next (dead .dnf))

/-! ## Toggle commands -/

/-- R275, R276, R278, R280, R282, R284, R286, R288, R290, R292: the nine toggle queries send the raw answer byte unchanged. ATT
and SPLIT repeat a sub-code only when ATT_SPLT_HAVE_SUB is true (D29). -/
def Obligations.ToggleQueriesAnswerRaw : Prop :=
  ∀ (s : State) (dst src : Byte),
    let done (t : Toggle) (head : List Byte) : State :=
      s.after s.env.tookToggle [.qry (.toggleState t) (.toggle s.nextToggle)]
        ([0xFE#8, 0xFE#8, src, 0xA4#8] ++ head ++ [s.nextToggle, 0xFD#8])
    exec (.funcPreampQ dst src) s = .next (done .preamp [s.cfg.cCtlFunc, s.cfg.subFuncPreamp])
      ∧ exec (.funcAgcQ dst src) s = .next (done .agc [s.cfg.cCtlFunc, s.cfg.subFuncAgc])
      ∧ exec (.funcNbQ dst src) s = .next (done .nbOn [s.cfg.cCtlFunc, s.cfg.subFuncNb])
      ∧ exec (.funcNrQ dst src) s = .next (done .nrOn [s.cfg.cCtlFunc, s.cfg.subFuncNr])
      ∧ exec (.funcDnfQ dst src) s = .next (done .dnfOn [s.cfg.cCtlFunc, s.cfg.subFuncDnf])
      ∧ exec (.pttQ dst src) s = .next (done .ptt [s.cfg.cCtlPtt, s.cfg.subPtt])
      ∧ exec (.atuQ dst src) s = .next (done .atu [s.cfg.cCtlPtt, s.cfg.subAtu])
      ∧ exec (.attQ dst src) s
        = .next (done .att (s.cfg.cCtlAtt :: (s.cfg.attSpltSubs.map (fun c => c.att)).toList))
      ∧ exec (.spltQ dst src) s
        = .next (done .split (s.cfg.cCtlSplt :: (s.cfg.attSpltSubs.map (fun c => c.splt)).toList))

/-- R275, R277, R279, R281, R283, R285, R287, R289, R291, R293: the nine toggle sets make one control call with the raw byte,
notify, and acknowledge; they query nothing and submit nothing. -/
def Obligations.ToggleSetsCallAndNotify : Prop :=
  ∀ (s : State) (dst src bb : Byte),
    let done (t : Toggle) : State :=
      s.after s.env [.ctl (.setToggle t bb), .notify] [0xFE#8, 0xFE#8, src, 0xA4#8, 0xFB#8, 0xFD#8]
    exec (.funcPreampS dst src bb) s = .next (done .preamp)
      ∧ exec (.funcAgcS dst src bb) s = .next (done .agc)
      ∧ exec (.funcNbS dst src bb) s = .next (done .nbOn)
      ∧ exec (.funcNrS dst src bb) s = .next (done .nrOn)
      ∧ exec (.funcDnfS dst src bb) s = .next (done .dnfOn)
      ∧ exec (.pttS dst src bb) s = .next (done .ptt)
      ∧ exec (.atuS dst src bb) s = .next (done .atu)
      ∧ exec (.attS dst src bb) s = .next (done .att)
      ∧ exec (.spltS dst src bb) s = .next (done .split)

/-! ## The whole machine -/

/-- R23, R56, R103, R104, R306, R22, R27: every step from a state that meets the invariant leads to one that does. -/
def Obligations.StepKeepsTheInvariant : Prop :=
  ∀ s t : State, s.inv = true → step s = .next t → t.inv = true

/-- R27: no step changes a parameter. -/
def Obligations.StepKeepsTheParameters : Prop :=
  ∀ s t : State, step s = .next t → t.cfg = s.cfg

/-- R39, R54: no step takes an event back: the trace before a step opens the trace after it. -/
def Obligations.TraceIsOnlyExtended : Prop :=
  ∀ s t : State, step s = .next t → ∃ es, t.trace = s.trace ++ es

/-- R317, R104, R132, R301: in a state that meets the invariant, a reader or dispatch step always answers a next state, in
ACCUM or DISPATCH unless the block faults; a dispatch step that does not fault leaves the block at a frame boundary, every
byte zero and `len = 0`. -/
def Obligations.ProtocolLoopNeverStops : Prop :=
  ∀ s : State, s.inv = true →
    (s.phase = .accum → ∃ t, step s = .next t ∧ (t.phase = .accum ∨ t.phase = .dispatch))
      ∧ (s.phase = .dispatch → ∃ t, step s = .next t ∧
        (t.isFaulted = true ∨ (t.phase = .accum ∧ t.len = 0 ∧ ∀ i < 256, t.buf.read i = some 0x00#8)))

/-- R306, R35, R304, R172: from a state that meets the invariant, the only fault is NativeOutOfRange in the FAULTED phase, with a
value outside the field's range; no refusal comes but in HALTED; and a step goes into FAULTED only as the dispatch of a level
request of that field whose level answer is the reported value and outside the field's range, keeping the buffer and the
counter. The fault and the refusal as answers of the phases without a step are the model's choice (log 9, log 18). -/
def Obligations.OnlyOutOfRangeLevelsFault : Prop :=
  ∀ s : State, s.inv = true →
    (∀ r, step s = .fault r → ∃ f v, r = .nativeOutOfRange f v ∧ s.phase = .faulted f v ∧ levelInRange f v = false)
      ∧ (∀ r, step s = .refused r → r = .halted ∧ s.phase = .halted)
      ∧ ∀ t f v, step s = .next t → t.phase = .faulted f v →
        s.phase = .dispatch ∧ v = s.nextLevel ∧ levelInRange f v = false ∧ t.buf = s.buf ∧ t.len = s.len
          ∧ ∃ req i, s.request = some req ∧ decodeFrame s.cfg req = .ok i ∧ i.handler = .level f

/-- R226: the six read-only commands query at most once, call nothing, submit nothing and notify nothing, and always end in
an answer, with as many payload bytes as R80 gives. -/
def Obligations.ReadOnlyCommandsOnlyAnswer : Prop :=
  ∀ (s : State) (dst src : Byte) (w : VfoSel) (i : Instr),
    i ∈ [.rdFreq dst src, .rdMode dst src, .selFreqQ dst src w, .selModeQ dst src w, .memWidthQ dst src,
      .rdTrxid dst src] →
    ∃ env payload es,
      exec i s = .next (s.after env es (answerFrame src (i.handler.head s.cfg) payload))
        ∧ answerLength s.cfg i.handler = some payload.length
        ∧ (es = [] ∨ ∃ k a, es = [.qry k a])

/-- R240, R260, R275, R32, R33: over all 44 instructions, a mutation is submitted only by a state-mutating command and at most
one of them, a control call is made only by the set form of a level or a toggle and at most one of them, and no instruction
does both. -/
def Obligations.SideEffectsByFamily : Prop :=
  ∀ (i : Instr) (s t : State) (es : List Event), exec i s = .next t → t.trace = s.trace ++ es →
    (submittedIn es).length + (calledIn es).length ≤ 1
      ∧ (submittedIn es ≠ [] → i.payload ≠ [] ∧
        (i.handler = .setFreq ∨ i.handler = .setMode ∨ i.handler = .setVfo ∨ (∃ w, i.handler = .selFreq w)
          ∨ ∃ w, i.handler = .selMode w))
      ∧ (calledIn es ≠ [] → i.payload ≠ [] ∧ ((∃ f, i.handler = .level f) ∨ ∃ g, i.handler = .toggle g))
end

