-- ==== Sys2Proof/Laws/Decode.lean ====
section
/-! SUPPORT. The code tables, frames and the decoder: what a well-formed configuration gives, said once. -/

namespace Sys2Proof

open Machine

theorem distinctBytes_iff {bs : List Byte} : distinctBytes bs = true ↔ bs.Nodup := by
  induction bs with
  | nil => simp [distinctBytes]
  | cons b bs ih => simp [distinctBytes, ih]

theorem clearOfEnd_iff {bs : List Byte} : clearOfEnd bs = true ↔ ∀ b ∈ bs, b ≠ endByte := by
  simp [clearOfEnd]

@[simp] theorem clearOfEnd_nil : clearOfEnd [] = true := rfl

@[simp] theorem clearOfEnd_cons (b : Byte) (bs : List Byte) :
    clearOfEnd (b :: bs) = true ↔ b ≠ endByte ∧ clearOfEnd bs = true := by
  simp [clearOfEnd]

@[simp] theorem clearOfEnd_append (as bs : List Byte) :
    clearOfEnd (as ++ bs) = true ↔ clearOfEnd as = true ∧ clearOfEnd bs = true := by
  simp only [clearOfEnd_iff, List.mem_append]
  exact ⟨fun h => ⟨fun b hb => h b (.inl hb), fun b hb => h b (.inr hb)⟩, fun h b hb => hb.elim (h.1 b) (h.2 b)⟩

/-- A frame is a body with no END, then END. -/
theorem isFrame_iff {bs : List Byte} : isFrame bs = true ↔ ∃ body, bs = body ++ [endByte] ∧ clearOfEnd body = true := by
  constructor
  · intro h
    simp only [isFrame, Bool.and_eq_true, beq_iff_eq] at h
    obtain ⟨hne, hl⟩ := List.getLast?_eq_some_iff.1 h.1
    subst hl
    exact ⟨hne, rfl, by simpa using h.2⟩
  · rintro ⟨body, rfl, h⟩
    simp [isFrame, h]

/-- Well-formedness of an instruction is that its address and payload bytes are clear of END. -/
theorem Instr.wf_eq (i : Instr) : i.wf = clearOfEnd (i.addrs.1 :: i.addrs.2 :: i.payload) := by
  cases i <;> rfl

theorem mem_familyAll (f : Family) : f ∈ Family.all := by cases f <;> decide

/-- The parts of R7. -/
theorem Config.wf_iff {cfg : Config} : cfg.wf = true ↔
    (Family.all.map (cmdCode cfg)).Nodup
      ∧ (∀ f, cmdCode cfg f ≠ preByte ∧ cmdCode cfg f ≠ endByte ∧ cmdCode cfg f ≠ ackCode ∧ cmdCode cfg f ≠ 0xFF#8)
      ∧ (∀ f, (subCodes cfg f).Nodup) ∧ (modeCodes cfg).Nodup ∧ 1 ≤ cfg.widthDigits := by
  simp only [Config.wf, Bool.and_eq_true, distinctBytes_iff, List.all_eq_true, List.mem_map, bne_iff_ne, ne_eq,
    decide_eq_true_eq, forall_exists_index, and_imp, forall_apply_eq_imp_iff₂]
  constructor
  · rintro ⟨⟨⟨⟨h1, h2⟩, h3⟩, h4⟩, h5⟩
    exact ⟨h1, fun f => ⟨(h2 f (mem_familyAll f)).1.1.1, (h2 f (mem_familyAll f)).1.1.2, (h2 f (mem_familyAll f)).1.2,
      (h2 f (mem_familyAll f)).2⟩, fun f => h3 f (mem_familyAll f), h4, h5⟩
  · rintro ⟨h1, h2, h3, h4, h5⟩
    exact ⟨⟨⟨⟨h1, fun f _ => ⟨⟨⟨(h2 f).1, (h2 f).2.1⟩, (h2 f).2.2.1⟩, (h2 f).2.2.2⟩⟩, fun f _ => h3 f⟩, h4⟩, h5⟩

theorem find?_of_nodup {α β : Type} [DecidableEq β] {l : List α} {key : α → β} (h : (l.map key).Nodup) {x : α}
    (hx : x ∈ l) : l.find? (fun y => key y == key x) = some x := by
  induction l with
  | nil => cases hx
  | cons y l ih =>
    simp only [List.map_cons, List.nodup_cons, List.mem_map, not_exists, not_and] at h
    rw [List.find?_cons]
    rcases List.mem_cons.1 hx with rfl | hx
    · simp
    · have : key y ≠ key x := fun e => h.1 x hx e.symm
      rw [show (key y == key x) = false from by simpa using this]
      exact ih h.2 hx

/-- Routing on a family's own code finds that family (R126). -/
theorem findFamily_cmdCode {cfg : Config} (h : cfg.wf = true) (f : Family) :
    findFamily cfg (cmdCode cfg f) = some f :=
  find?_of_nodup (Config.wf_iff.1 h).1 (mem_familyAll f)

/-- Routing finds a family only by its code (R126). -/
theorem findFamily_some {cfg : Config} {b : Byte} {f : Family} (h : findFamily cfg b = some f) : cmdCode cfg f = b := by
  simpa using List.find?_some h

/-- Routing finds a handler of the table only by its sub-code (R127). -/
theorem findSub_some {cfg : Config} {hs : List Handler} {b : Byte} {h : Handler} (k : findSub cfg hs b = some h) :
    h ∈ hs ∧ h.sub cfg = some b := by
  refine ⟨List.mem_of_find?_eq_some k, ?_⟩
  simpa using List.find?_some k

/-- A handler stands in its own family's route. -/
theorem mem_route_handlers (cfg : Config) (h : Handler) : h ∈ (h.family.route cfg).handlers := by
  cases h with
  | toggle t => cases t <;> simp only [Handler.family, toggleFamily, Family.route, attSpltRoute] <;> (try split) <;> simp [Route.handlers]
  | level f => cases f <;> simp [Handler.family, Family.route, Route.handlers]
  | selFreq w => cases w <;> simp [Handler.family, Family.route, Route.handlers]
  | selMode w => cases w <;> simp [Handler.family, Family.route, Route.handlers]
  | _ => simp [Handler.family, Family.route, Route.handlers]

/-- A handler of a family's route belongs to that family. -/
theorem family_of_mem_route {cfg : Config} {f : Family} {h : Handler} (k : h ∈ (f.route cfg).handlers) :
    h.family = f := by
  cases f <;> simp only [Family.route, attSpltRoute] at k <;> (try split at k) <;>
    simp only [Route.handlers, List.mem_cons, List.not_mem_nil, or_false] at k <;>
    (try rcases k with rfl | rfl | rfl | rfl | rfl | rfl | rfl) <;> rfl

/-- A family goes straight to its handler exactly when the handler has no sub-code; otherwise every handler of its table has
one (R73). -/
theorem route_plain_sub {cfg : Config} {f : Family} {h : Handler} (k : f.route cfg = .plain h) :
    h.family = f ∧ h.sub cfg = none := by
  cases f <;> simp only [Family.route, attSpltRoute] at k <;> (try split at k) <;>
    first
      | (cases k; done)
      | (cases k; exact ⟨rfl, rfl⟩)
      | (cases k; rename_i e; exact ⟨rfl, by simp [Handler.sub, toggleSub, e]⟩)

theorem route_bySub_sub {cfg : Config} {f : Family} {hs : List Handler} (k : f.route cfg = .bySub hs) {h : Handler}
    (m : h ∈ hs) : ∃ b, h.sub cfg = some b := by
  cases f <;> simp only [Family.route, attSpltRoute] at k <;> (try split at k) <;> cases k <;>
    simp only [List.mem_cons, List.not_mem_nil, or_false] at m <;>
    (try rcases m with rfl | rfl | rfl | rfl | rfl | rfl | rfl) <;> simp_all [Handler.sub, toggleSub]

theorem find?_some_of_nodup {l : List Handler} {key : Handler → Option Byte} (h : (l.filterMap key).Nodup)
    {x : Handler} {b : Byte} (hx : x ∈ l) (hb : key x = some b) : l.find? (fun y => key y == some b) = some x := by
  induction l with
  | nil => cases hx
  | cons y l ih =>
    rw [List.find?_cons]
    rcases List.mem_cons.1 hx with rfl | hx'
    · simp [hb]
    · cases hy : key y with
      | none =>
        rw [List.filterMap_cons_none hy] at h
        simpa [hy] using ih h hx'
      | some c =>
        rw [List.filterMap_cons_some hy, List.nodup_cons] at h
        have : c ≠ b := fun e => h.1 (e ▸ List.mem_filterMap.2 ⟨x, hx', hb⟩)
        rw [show (some c == some b) = false from by simpa using this]
        exact ih h.2 hx'

/-- Routing on a handler's own sub-code finds that handler (R127). -/
theorem findSub_sub {cfg : Config} (hc : cfg.wf = true) {f : Family} {hs : List Handler} (k : f.route cfg = .bySub hs)
    {h : Handler} (m : h ∈ hs) {b : Byte} (hb : h.sub cfg = some b) : findSub cfg hs b = some h := by
  have hn := (Config.wf_iff.1 hc).2.2.1 f
  rw [subCodes, k] at hn
  exact find?_some_of_nodup hn m hb

/-- The sub-code of a handler is not END in a configuration whose sub-codes can be sent (R72). -/
theorem sub_ne_end {cfg : Config} (hs : cfg.sendable = true) {h : Handler} {b : Byte} (hb : h.sub cfg = some b) :
    b ≠ endByte := by
  have := List.all_eq_true.1 hs h.family (mem_familyAll _)
  exact clearOfEnd_iff.1 this b (List.mem_filterMap.2 ⟨h, mem_route_handlers cfg h, hb⟩)

/-- CMD and SUB are clear of END. -/
theorem head_clear {cfg : Config} (hc : cfg.wf = true) (hs : cfg.sendable = true) (h : Handler) :
    clearOfEnd (h.head cfg) = true := by
  rw [Handler.head, clearOfEnd_cons]
  refine ⟨((Config.wf_iff.1 hc).2.1 h.family).2.1, clearOfEnd_iff.2 fun b hb => ?_⟩
  exact sub_ne_end hs (by simpa using hb)

theorem head_length (cfg : Config) (h : Handler) : 1 ≤ (h.head cfg).length ∧ (h.head cfg).length ≤ 2 := by
  cases e : h.sub cfg <;> simp [Handler.head, e]

/-- The decoder after the envelope, for the bytes of a handler's own CMD and SUB: only form and length are left (R128). -/
theorem decodeFrame_head {cfg : Config} (hc : cfg.wf = true) (h : Handler) (dst src : Byte) {tail : List Byte}
    (ht : tail ≠ []) :
    decodeFrame cfg ([preByte, preByte, dst, src] ++ h.head cfg ++ tail) = decodeForm dst src h tail := by
  have hm := mem_route_handlers cfg h
  cases e : h.sub cfg with
  | none =>
    obtain ⟨x, rest, rfl⟩ := List.exists_cons_of_ne_nil ht
    simp only [Handler.head, e, Option.toList_none, List.cons_append, List.nil_append, decodeFrame, and_self, if_true,
      findFamily_cmdCode hc, decodeRouted]
    cases r : h.family.route cfg with
    | plain g =>
      rw [r] at hm
      simp only [Route.handlers, List.mem_singleton] at hm
      simp only [hm]
    | bySub hs =>
      rw [r] at hm
      obtain ⟨b, hb⟩ := route_bySub_sub r hm
      simp [e] at hb
  | some b =>
    obtain ⟨y, rest, rfl⟩ := List.exists_cons_of_ne_nil ht
    simp only [Handler.head, e, Option.toList_some, List.cons_append, List.nil_append, decodeFrame, and_self, if_true,
      findFamily_cmdCode hc, decodeRouted]
    cases r : h.family.route cfg with
    | plain g =>
      rw [r] at hm
      simp only [Route.handlers, List.mem_singleton] at hm
      have := (route_plain_sub r).2
      simp [← hm, e] at this
    | bySub hs =>
      rw [r] at hm
      simp only [findSub_sub hc r hm e]

/-- The decoder answers `framing` exactly for the frames that R121 drops. -/
theorem decodeFrame_framing {cfg : Config} {bs : List Byte} :
    decodeFrame cfg bs = .error .framing ↔ framingBad bs = true := by
  have form : ∀ d s h t, decodeForm d s h t ≠ .error .framing := by
    intro d s h t
    unfold decodeForm
    repeat' split
    all_goals simp
  have routed : ∀ d s f x r, decodeRouted cfg d s f x r ≠ .error .framing := by
    intro d s f x r
    unfold decodeRouted
    repeat' split
    all_goals first | exact form _ _ _ _ | simp
  match bs with
  | p0 :: p1 :: d :: s :: c :: x :: rest =>
    by_cases hp : p0 = preByte ∧ p1 = preByte
    · have : framingBad (p0 :: p1 :: d :: s :: c :: x :: rest) = false := by simp [framingBad, hp.1, hp.2]
      simp only [decodeFrame, if_pos hp, this]
      cases findFamily cfg c with
      | none => simp
      | some f => simpa using routed _ _ _ _ _
    · have : framingBad (p0 :: p1 :: d :: s :: c :: x :: rest) = true := by
        simp only [framingBad, List.getD_cons_zero, List.getD_cons_succ, Bool.or_eq_true, decide_eq_true_eq]
        tauto
      simp only [decodeFrame, if_neg hp, this]
  | [] => simp [decodeFrame, framingBad]
  | [_] => simp [decodeFrame, framingBad]
  | [_, _] => simp [decodeFrame, framingBad]
  | [_, _, _] => simp [decodeFrame, framingBad]
  | [_, _, _, _] => simp [decodeFrame, framingBad]
  | [_, _, _, _, _] => simp [decodeFrame, framingBad]

end Sys2Proof
end

