-- ==== Sys2Proof/Laws/Memory.lean ====
section
/-! SUPPORT. The laws of the buffer: the canonical form is kept by every operation, and a write changes the one byte it
writes. -/

namespace Sys2Proof.Machine

theorem Memory.wfFrom_mono {lo lo' : Nat} {m : Memory} (h : lo' ≤ lo) (hm : Memory.wfFrom lo m = true) :
    Memory.wfFrom lo' m = true := by
  cases m with
  | nil => rfl
  | cons c rest =>
    obtain ⟨i, b⟩ := c
    simp only [Memory.wfFrom, Bool.and_eq_true, decide_eq_true_eq] at hm ⊢
    exact ⟨⟨⟨by omega, hm.1.1.2⟩, hm.1.2⟩, hm.2⟩

theorem Memory.cons_wfFrom {lo a : Nat} {b : Byte} {m : Memory} (hlo : lo ≤ a) (ha : a < maxFrame)
    (hm : Memory.wfFrom (a + 1) m = true) : Memory.wfFrom lo (Memory.cons a b m) = true := by
  unfold Memory.cons
  split
  · exact Memory.wfFrom_mono (by omega) hm
  · simp_all [Memory.wfFrom]

/-- A write inside the buffer keeps the canonical form. -/
theorem Memory.put_wfFrom {lo a : Nat} {b : Byte} {m : Memory} (hlo : lo ≤ a) (ha : a < maxFrame)
    (hm : Memory.wfFrom lo m = true) : Memory.wfFrom lo (m.put a b) = true := by
  induction m generalizing lo with
  | nil => exact Memory.cons_wfFrom hlo ha rfl
  | cons c rest ih =>
    obtain ⟨i, c⟩ := c
    have hm' := hm
    simp only [Memory.wfFrom, Bool.and_eq_true, decide_eq_true_eq] at hm
    obtain ⟨⟨⟨h1, h2⟩, h3⟩, h4⟩ := hm
    unfold Memory.put
    split
    · refine Memory.cons_wfFrom hlo ha ?_
      simp only [Memory.wfFrom, Bool.and_eq_true, decide_eq_true_eq]
      exact ⟨⟨⟨by omega, h2⟩, h3⟩, h4⟩
    · split
      · next h => exact Memory.cons_wfFrom hlo ha (h ▸ h4)
      · simp only [Memory.wfFrom, Bool.and_eq_true, decide_eq_true_eq]
        exact ⟨⟨⟨h1, h2⟩, h3⟩, ih (by omega) h4⟩

/-- `Memory.write` keeps the canonical form wherever it answers. -/
theorem Memory.write_wf {m m' : Memory} {a : Nat} {b : Byte} (hm : m.wf = true) (h : m.write a b = some m') :
    m'.wf = true := by
  unfold Memory.write at h
  split at h
  · next ha => cases h; exact Memory.put_wfFrom (Nat.zero_le _) ha hm
  · cases h

@[simp] theorem Memory.zeroFilled_wf : Memory.zeroFilled.wf = true := rfl

/-- Bytes laid out from index `i` are in canonical form if they fit. -/
theorem Memory.ofBytesFrom_wf {bs : List Byte} {i lo : Nat} (hlo : lo ≤ i) (h : i + bs.length ≤ maxFrame) :
    Memory.wfFrom lo (Memory.ofBytesFrom i bs) = true := by
  induction bs generalizing i lo with
  | nil => rfl
  | cons b bs ih =>
    simp only [List.length_cons] at h
    exact Memory.cons_wfFrom hlo (by omega) (ih (Nat.le_refl _) (by omega))

@[simp] theorem Memory.byteAt_nil (a : Nat) : Memory.byteAt [] a = 0#8 := rfl

theorem Memory.byteAt_cons (i a : Nat) (b : Byte) (m : Memory) :
    Memory.byteAt ((i, b) :: m) a = if i = a then b else m.byteAt a := rfl

/-- An index below every listed one reads zero. -/
theorem Memory.byteAt_of_lt {lo a : Nat} {m : Memory} (hm : Memory.wfFrom lo m = true) (h : a < lo) :
    m.byteAt a = 0#8 := by
  induction m generalizing lo with
  | nil => rfl
  | cons c rest ih =>
    obtain ⟨i, b⟩ := c
    simp only [Memory.wfFrom, Bool.and_eq_true, decide_eq_true_eq] at hm
    rw [Memory.byteAt_cons, if_neg (by omega)]
    exact ih hm.2 (by omega)

/-- A cell put in front reads back, and hides nothing else. -/
theorem Memory.byteAt_consCell {a x : Nat} {b : Byte} {m : Memory} (hm : Memory.wfFrom (a + 1) m = true) :
    (Memory.cons a b m).byteAt x = if x = a then b else m.byteAt x := by
  unfold Memory.cons
  split
  · next hb =>
    split
    · next hx => rw [hb]; exact Memory.byteAt_of_lt hm (by omega)
    · rfl
  · rw [Memory.byteAt_cons]
    simp only [eq_comm]

/-- Read after write: the written index gives the byte, every other index what it gave before. -/
theorem Memory.byteAt_put {lo a x : Nat} {b : Byte} {m : Memory} (hm : Memory.wfFrom lo m = true) :
    (m.put a b).byteAt x = if x = a then b else m.byteAt x := by
  induction m generalizing lo with
  | nil => exact Memory.byteAt_consCell rfl
  | cons c rest ih =>
    obtain ⟨i, c⟩ := c
    simp only [Memory.wfFrom, Bool.and_eq_true, decide_eq_true_eq] at hm
    obtain ⟨⟨⟨h1, h2⟩, h3⟩, h4⟩ := hm
    unfold Memory.put
    split
    · next h =>
      refine Memory.byteAt_consCell ?_
      simp only [Memory.wfFrom, Bool.and_eq_true, decide_eq_true_eq]
      exact ⟨⟨⟨by omega, h2⟩, h3⟩, h4⟩
    · split
      · next h =>
        subst h
        rw [Memory.byteAt_consCell h4, Memory.byteAt_cons]
        by_cases hx : x = a
        · simp [hx]
        · simp [hx, Ne.symm hx]
      · next h h' =>
        rw [Memory.byteAt_cons, Memory.byteAt_cons, ih h4]
        by_cases hx : i = x
        · have : x ≠ a := by omega
          simp [hx, this]
        · simp [hx]

/-- Laying bytes out and reading the first of them back. -/
theorem Memory.byteAt_ofBytesFrom {bs : List Byte} {i x : Nat} (h : i + bs.length ≤ maxFrame) :
    (Memory.ofBytesFrom i bs).byteAt x = if i ≤ x then bs.getD (x - i) 0#8 else 0#8 := by
  induction bs generalizing i with
  | nil => simp [Memory.ofBytesFrom]
  | cons b bs ih =>
    simp only [List.length_cons] at h
    have hw : Memory.wfFrom (i + 1) (Memory.ofBytesFrom (i + 1) bs) = true :=
      Memory.ofBytesFrom_wf (Nat.le_refl _) (by omega)
    rw [Memory.ofBytesFrom, Memory.byteAt_consCell hw, ih (by omega)]
    rcases Nat.lt_trichotomy x i with hx | hx | hx
    · rw [if_neg (by omega), if_neg (by omega), if_neg (by omega)]
    · subst hx; simp
    · rw [if_neg (by omega), if_pos (by omega), if_pos (by omega)]
      obtain ⟨k, rfl⟩ : ∃ k, x = i + 1 + k := ⟨x - (i + 1), by omega⟩
      rw [show i + 1 + k - (i + 1) = k by omega, show i + 1 + k - i = k + 1 by omega, List.getD_cons_succ]

@[simp] theorem Memory.slice_length (m : Memory) (n : Nat) : (m.slice n).length = n := by simp [Memory.slice]

theorem Memory.slice_succ (m : Memory) (n : Nat) : m.slice (n + 1) = m.slice n ++ [m.byteAt n] := by
  simp [Memory.slice, List.range_succ]

/-- A write past a slice does not change the slice. -/
theorem Memory.slice_put {lo a n : Nat} {b : Byte} {m : Memory} (hm : Memory.wfFrom lo m = true) (h : n ≤ a) :
    (m.put a b).slice n = m.slice n := by
  refine List.map_congr_left fun i hi => ?_
  rw [Memory.byteAt_put hm, if_neg (by have := List.mem_range.1 hi; omega)]

/-- Appending a byte at the end of a slice. -/
theorem Memory.slice_put_succ {lo n : Nat} {b : Byte} {m : Memory} (hm : Memory.wfFrom lo m = true) :
    (m.put n b).slice (n + 1) = m.slice n ++ [b] := by
  rw [Memory.slice_succ, Memory.slice_put hm (Nat.le_refl n), Memory.byteAt_put hm, if_pos rfl]

/-- Laying a frame out in the buffer and taking it back. -/
theorem Memory.slice_ofBytesFrom {bs : List Byte} (h : bs.length ≤ maxFrame) :
    (Memory.ofBytesFrom 0 bs).slice bs.length = bs := by
  refine List.ext_getElem (by simp) fun i h1 h2 => ?_
  simp only [Memory.slice, List.getElem_map, List.getElem_range]
  rw [Memory.byteAt_ofBytesFrom (by omega)]
  simp [h2]

end Sys2Proof.Machine
end

