-- ==== Sys2Proof/Laws/State.lean ====
section
/-! SUPPORT. One lemma per field per update of the state, so that no proof unfolds a record update. -/

namespace Sys2Proof.Machine

@[simp] theorem State.emit_cfg (s : State) (es : List Event) : (s.emit es).cfg = s.cfg := rfl
@[simp] theorem State.emit_phase (s : State) (es : List Event) : (s.emit es).phase = s.phase := rfl
@[simp] theorem State.emit_buf (s : State) (es : List Event) : (s.emit es).buf = s.buf := rfl
@[simp] theorem State.emit_len (s : State) (es : List Event) : (s.emit es).len = s.len := rfl
@[simp] theorem State.emit_trace (s : State) (es : List Event) : (s.emit es).trace = s.trace ++ es := rfl
@[simp] theorem State.emit_env (s : State) (es : List Event) : (s.emit es).env = s.env := rfl

@[simp] theorem State.transmit_cfg (s : State) (bs : List Byte) : (s.transmit bs).cfg = s.cfg := rfl
@[simp] theorem State.transmit_phase (s : State) (bs : List Byte) : (s.transmit bs).phase = s.phase := rfl
@[simp] theorem State.transmit_buf (s : State) (bs : List Byte) : (s.transmit bs).buf = s.buf := rfl
@[simp] theorem State.transmit_len (s : State) (bs : List Byte) : (s.transmit bs).len = s.len := rfl
@[simp] theorem State.transmit_trace (s : State) (bs : List Byte) :
    (s.transmit bs).trace = s.trace ++ bs.map Event.tx := rfl
@[simp] theorem State.transmit_env (s : State) (bs : List Byte) : (s.transmit bs).env = s.env := rfl

@[simp] theorem State.control_cfg (s : State) (c : ControlCall) : (s.control c).cfg = s.cfg := rfl
@[simp] theorem State.control_phase (s : State) (c : ControlCall) : (s.control c).phase = s.phase := rfl
@[simp] theorem State.control_buf (s : State) (c : ControlCall) : (s.control c).buf = s.buf := rfl
@[simp] theorem State.control_len (s : State) (c : ControlCall) : (s.control c).len = s.len := rfl
@[simp] theorem State.control_trace (s : State) (c : ControlCall) : (s.control c).trace = s.trace ++ [.ctl c] := rfl
@[simp] theorem State.control_env (s : State) (c : ControlCall) : (s.control c).env = s.env := rfl

@[simp] theorem State.submit_cfg (s : State) (m : Mutation) : (s.submit m).cfg = s.cfg := rfl
@[simp] theorem State.submit_phase (s : State) (m : Mutation) : (s.submit m).phase = s.phase := rfl
@[simp] theorem State.submit_buf (s : State) (m : Mutation) : (s.submit m).buf = s.buf := rfl
@[simp] theorem State.submit_len (s : State) (m : Mutation) : (s.submit m).len = s.len := rfl
@[simp] theorem State.submit_trace (s : State) (m : Mutation) : (s.submit m).trace = s.trace ++ [.mut m] := rfl
@[simp] theorem State.submit_env (s : State) (m : Mutation) : (s.submit m).env = s.env := rfl

@[simp] theorem State.notify_cfg (s : State) : s.notify.cfg = s.cfg := rfl
@[simp] theorem State.notify_phase (s : State) : s.notify.phase = s.phase := rfl
@[simp] theorem State.notify_buf (s : State) : s.notify.buf = s.buf := rfl
@[simp] theorem State.notify_len (s : State) : s.notify.len = s.len := rfl
@[simp] theorem State.notify_trace (s : State) : s.notify.trace = s.trace ++ [.notify] := rfl
@[simp] theorem State.notify_env (s : State) : s.notify.env = s.env := rfl

@[simp] theorem State.logEvent_cfg (s : State) (r : LogReason) : (s.logEvent r).cfg = s.cfg := rfl
@[simp] theorem State.logEvent_phase (s : State) (r : LogReason) : (s.logEvent r).phase = s.phase := rfl
@[simp] theorem State.logEvent_buf (s : State) (r : LogReason) : (s.logEvent r).buf = s.buf := rfl
@[simp] theorem State.logEvent_len (s : State) (r : LogReason) : (s.logEvent r).len = s.len := rfl
@[simp] theorem State.logEvent_trace (s : State) (r : LogReason) : (s.logEvent r).trace = s.trace ++ [.log r] := rfl
@[simp] theorem State.logEvent_env (s : State) (r : LogReason) : (s.logEvent r).env = s.env := rfl

@[simp] theorem State.finish_cfg (s : State) : s.finish.cfg = s.cfg := rfl
@[simp] theorem State.finish_phase (s : State) : s.finish.phase = .accum := rfl
@[simp] theorem State.finish_buf (s : State) : s.finish.buf = [] := rfl
@[simp] theorem State.finish_len (s : State) : s.finish.len = 0 := rfl
@[simp] theorem State.finish_trace (s : State) : s.finish.trace = s.trace := rfl
@[simp] theorem State.finish_env (s : State) : s.finish.env = s.env := rfl

@[simp] theorem State.raiseFault_cfg (s : State) (f : LevelField) (v : Int) : (s.raiseFault f v).cfg = s.cfg := rfl
@[simp] theorem State.raiseFault_phase (s : State) (f : LevelField) (v : Int) :
    (s.raiseFault f v).phase = .faulted f v := rfl
@[simp] theorem State.raiseFault_buf (s : State) (f : LevelField) (v : Int) : (s.raiseFault f v).buf = s.buf := rfl
@[simp] theorem State.raiseFault_len (s : State) (f : LevelField) (v : Int) : (s.raiseFault f v).len = s.len := rfl
@[simp] theorem State.raiseFault_trace (s : State) (f : LevelField) (v : Int) :
    (s.raiseFault f v).trace = s.trace := rfl
@[simp] theorem State.raiseFault_env (s : State) (f : LevelField) (v : Int) : (s.raiseFault f v).env = s.env := rfl

@[simp] theorem State.rxNext_cfg (s : State) : s.rxNext.2.cfg = s.cfg := rfl
@[simp] theorem State.rxNext_phase (s : State) : s.rxNext.2.phase = s.phase := rfl
@[simp] theorem State.rxNext_buf (s : State) : s.rxNext.2.buf = s.buf := rfl
@[simp] theorem State.rxNext_len (s : State) : s.rxNext.2.len = s.len := rfl
@[simp] theorem State.rxNext_trace (s : State) : s.rxNext.2.trace = s.trace := rfl

@[simp] theorem State.queryFreq_cfg (s : State) (w : VfoSel) : (s.queryFreq w).2.cfg = s.cfg := rfl
@[simp] theorem State.queryFreq_phase (s : State) (w : VfoSel) : (s.queryFreq w).2.phase = s.phase := rfl
@[simp] theorem State.queryFreq_buf (s : State) (w : VfoSel) : (s.queryFreq w).2.buf = s.buf := rfl
@[simp] theorem State.queryFreq_len (s : State) (w : VfoSel) : (s.queryFreq w).2.len = s.len := rfl
@[simp] theorem State.queryFreq_trace (s : State) (w : VfoSel) :
    (s.queryFreq w).2.trace = s.trace ++ [.qry (.freqOf w) (.freq (s.queryFreq w).1)] := rfl

@[simp] theorem State.queryMode_cfg (s : State) (w : VfoSel) : (s.queryMode w).2.cfg = s.cfg := rfl
@[simp] theorem State.queryMode_phase (s : State) (w : VfoSel) : (s.queryMode w).2.phase = s.phase := rfl
@[simp] theorem State.queryMode_buf (s : State) (w : VfoSel) : (s.queryMode w).2.buf = s.buf := rfl
@[simp] theorem State.queryMode_len (s : State) (w : VfoSel) : (s.queryMode w).2.len = s.len := rfl
@[simp] theorem State.queryMode_trace (s : State) (w : VfoSel) :
    (s.queryMode w).2.trace = s.trace ++ [.qry (.modeOf w) (.mode (s.queryMode w).1)] := rfl

@[simp] theorem State.queryVfo_cfg (s : State) : s.queryVfo.2.cfg = s.cfg := rfl
@[simp] theorem State.queryVfo_phase (s : State) : s.queryVfo.2.phase = s.phase := rfl
@[simp] theorem State.queryVfo_buf (s : State) : s.queryVfo.2.buf = s.buf := rfl
@[simp] theorem State.queryVfo_len (s : State) : s.queryVfo.2.len = s.len := rfl
@[simp] theorem State.queryVfo_trace (s : State) :
    s.queryVfo.2.trace = s.trace ++ [.qry .activeVfo (.vfo s.queryVfo.1)] := rfl

@[simp] theorem State.queryLevel_cfg (s : State) (f : LevelField) : (s.queryLevel f).2.cfg = s.cfg := rfl
@[simp] theorem State.queryLevel_phase (s : State) (f : LevelField) : (s.queryLevel f).2.phase = s.phase := rfl
@[simp] theorem State.queryLevel_buf (s : State) (f : LevelField) : (s.queryLevel f).2.buf = s.buf := rfl
@[simp] theorem State.queryLevel_len (s : State) (f : LevelField) : (s.queryLevel f).2.len = s.len := rfl
@[simp] theorem State.queryLevel_trace (s : State) (f : LevelField) :
    (s.queryLevel f).2.trace = s.trace ++ [.qry (.level f) (.level (s.queryLevel f).1)] := rfl

@[simp] theorem State.queryToggle_cfg (s : State) (t : Toggle) : (s.queryToggle t).2.cfg = s.cfg := rfl
@[simp] theorem State.queryToggle_phase (s : State) (t : Toggle) : (s.queryToggle t).2.phase = s.phase := rfl
@[simp] theorem State.queryToggle_buf (s : State) (t : Toggle) : (s.queryToggle t).2.buf = s.buf := rfl
@[simp] theorem State.queryToggle_len (s : State) (t : Toggle) : (s.queryToggle t).2.len = s.len := rfl
@[simp] theorem State.queryToggle_trace (s : State) (t : Toggle) :
    (s.queryToggle t).2.trace = s.trace ++ [.qry (.toggleState t) (.toggle (s.queryToggle t).1)] := rfl

@[simp] theorem State.queryWidth_cfg (s : State) : s.queryWidth.2.cfg = s.cfg := rfl
@[simp] theorem State.queryWidth_phase (s : State) : s.queryWidth.2.phase = s.phase := rfl
@[simp] theorem State.queryWidth_buf (s : State) : s.queryWidth.2.buf = s.buf := rfl
@[simp] theorem State.queryWidth_len (s : State) : s.queryWidth.2.len = s.len := rfl
@[simp] theorem State.queryWidth_trace (s : State) :
    s.queryWidth.2.trace = s.trace ++ [.qry .width (.width s.queryWidth.1)] := rfl

@[simp] theorem State.withFetchWord_cfg (s : State) (nbits w : Nat) : (s.withFetchWord nbits w).cfg = s.cfg := rfl
@[simp] theorem State.withFetchWord_phase (s : State) (nbits w : Nat) :
    (s.withFetchWord nbits w).phase = .dispatch := rfl
@[simp] theorem State.withFetchWord_len (s : State) (nbits w : Nat) :
    (s.withFetchWord nbits w).len = (tableFrame nbits w).length := rfl
@[simp] theorem State.withFetchWord_trace (s : State) (nbits w : Nat) :
    (s.withFetchWord nbits w).trace = s.trace := rfl
@[simp] theorem State.withFetchWord_env (s : State) (nbits w : Nat) : (s.withFetchWord nbits w).env = s.env := rfl

end Sys2Proof.Machine
end

