-- ==== Sys2Proof/Laws/Ops.lean ====
section
/-! SUPPORT. What each shared operation can do, said once: the queries, the replies and `conclude`, the request in the
buffer, the reader's two outcomes, and `exec` as a whole. -/

namespace Sys2Proof.Machine

@[simp] theorem State.after_cfg (s : State) (e : Env) (es : List Event) (r : List Byte) : (s.after e es r).cfg = s.cfg := rfl
@[simp] theorem State.after_phase (s : State) (e : Env) (es : List Event) (r : List Byte) :
    (s.after e es r).phase = .accum := rfl
@[simp] theorem State.after_buf (s : State) (e : Env) (es : List Event) (r : List Byte) : (s.after e es r).buf = [] := rfl
@[simp] theorem State.after_len (s : State) (e : Env) (es : List Event) (r : List Byte) : (s.after e es r).len = 0 := rfl
@[simp] theorem State.after_env (s : State) (e : Env) (es : List Event) (r : List Byte) : (s.after e es r).env = e := rfl
@[simp] theorem State.after_trace (s : State) (e : Env) (es : List Event) (r : List Byte) :
    (s.after e es r).trace = s.trace ++ es ++ r.map Event.tx := rfl

@[simp] theorem State.queryFreq_fst (s : State) (w : VfoSel) : (s.queryFreq w).1 = s.nextFreq := rfl
@[simp] theorem State.queryMode_fst (s : State) (w : VfoSel) : (s.queryMode w).1 = s.nextMode := rfl
@[simp] theorem State.queryVfo_fst (s : State) : s.queryVfo.1 = s.nextVfo := rfl
@[simp] theorem State.queryLevel_fst (s : State) (f : LevelField) : (s.queryLevel f).1 = s.nextLevel := rfl
@[simp] theorem State.queryToggle_fst (s : State) (t : Toggle) : (s.queryToggle t).1 = s.nextToggle := rfl
@[simp] theorem State.queryWidth_fst (s : State) : s.queryWidth.1 = s.nextWidth := rfl
@[simp] theorem State.queryFreq_env (s : State) (w : VfoSel) : (s.queryFreq w).2.env = s.env.tookFreq := rfl
@[simp] theorem State.queryMode_env (s : State) (w : VfoSel) : (s.queryMode w).2.env = s.env.tookMode := rfl
@[simp] theorem State.queryVfo_env (s : State) : s.queryVfo.2.env = s.env.tookVfo := rfl
@[simp] theorem State.queryLevel_env (s : State) (f : LevelField) : (s.queryLevel f).2.env = s.env.tookLevel := rfl
@[simp] theorem State.queryToggle_env (s : State) (t : Toggle) : (s.queryToggle t).2.env = s.env.tookToggle := rfl
@[simp] theorem State.queryWidth_env (s : State) : s.queryWidth.2.env = s.env.tookWidth := rfl
@[simp] theorem State.rxNext_env (s : State) : s.rxNext.2.env = s.env.polled 1 := by
  simp [State.rxNext, Env.polled]

/-- An acknowledgment, as one state. -/
theorem State.acknowledge_eq (s : State) (src : Byte) : s.acknowledge src = s.after s.env [] (ackFrame src) := by
  simp [State.acknowledge, State.after, State.finish, State.transmit, State.emit, responseHeader, ackFrame, Memory.zeroFilled,
    preByte, deviceAddr, ackCode, endByte]

/-- A NAK, as one state: the log event, then the response. -/
theorem State.negativeAck_eq (s : State) (src : Byte) (r : NakReason) :
    s.negativeAck src r = s.after s.env [.log (.nak r)] (nakFrame s.cfg src) := by
  simp [State.negativeAck, State.after, State.finish, State.transmit, State.logEvent, State.emit, responseHeader, nakFrame,
    Memory.zeroFilled, preByte, deviceAddr, endByte]

/-- A data answer, as one state. -/
theorem State.answerWith_eq (s : State) (src : Byte) (head payload : List Byte) :
    s.answerWith src head payload = s.after s.env [] (answerFrame src head payload) := by
  simp [State.answerWith, State.after, State.finish, State.transmit, State.emit, responseHeader, answerFrame,
    Memory.zeroFilled, preByte, deviceAddr, endByte]

/-- The reader's byte, inside the buffer: END completes, a 256th other byte discards, any other byte is counted (R101,
R102). -/
theorem State.receive_eq {s : State} {b : Byte} (h : s.len < maxFrame) :
    s.receive b = .next (
      if b = endByte then
        { s with buf := s.buf.put s.len b, len := s.len + 1, phase := .dispatch, trace := s.trace ++ [.rxByte b] }
      else if s.len + 1 = maxFrame then { s with buf := [], len := 0, trace := s.trace ++ [.rxByte b] }
      else { s with buf := s.buf.put s.len b, len := s.len + 1, trace := s.trace ++ [.rxByte b] }) := by
  simp only [State.receive, Memory.write, if_pos h]
  split
  · rfl
  · split <;> rfl

/-- The request in the buffer, where the counter is inside the buffer. -/
theorem State.request_eq {s : State} (h : s.len ≤ maxFrame) : s.request = some (s.buf.slice s.len) := if_pos h

/-- `u` is `s` after a handler: only port events other than `Tx` were added and only inputs taken. -/
structure Handled (s u : State) : Prop where
  cfg : u.cfg = s.cfg
  phase : u.phase = s.phase
  buf : u.buf = s.buf
  len : u.len = s.len
  trace : ∃ es, u.trace = s.trace ++ es ∧ sentBytes es = []

/-- A completed dispatch forgets everything of the state before it but its parameters and its trace. -/
theorem State.after_of_trace {s u : State} {es fs : List Event} (hc : u.cfg = s.cfg) (ht : u.trace = s.trace ++ es)
    (e : Env) (r : List Byte) : u.after e fs r = s.after e (es ++ fs) r := by
  simp [State.after, hc, ht]

theorem Handled.refl (s : State) : Handled s s := ⟨rfl, rfl, rfl, rfl, [], by simp, rfl⟩

theorem Handled.trans {s u v : State} (h : Handled s u) (k : Handled u v) : Handled s v := by
  obtain ⟨es, he, hs⟩ := h.trace
  obtain ⟨fs, hf, ht⟩ := k.trace
  refine ⟨k.cfg.trans h.cfg, k.phase.trans h.phase, k.buf.trans h.buf, k.len.trans h.len, es ++ fs, ?_, ?_⟩
  · rw [hf, he, List.append_assoc]
  · simp_all [sentBytes]

/-- One event that sends nothing. -/
theorem Handled.event {s u : State} (e : Event) (hc : u.cfg = s.cfg) (hp : u.phase = s.phase) (hb : u.buf = s.buf)
    (hl : u.len = s.len) (ht : u.trace = s.trace ++ [e]) (he : e.sent = []) : Handled s u :=
  ⟨hc, hp, hb, hl, [e], ht, by simp [sentBytes, he]⟩

theorem Handled.queryFreq (s : State) (w : VfoSel) : Handled s (s.queryFreq w).2 :=
  .event (.qry (.freqOf w) (.freq (s.queryFreq w).1)) rfl rfl rfl rfl rfl rfl

theorem Handled.queryMode (s : State) (w : VfoSel) : Handled s (s.queryMode w).2 :=
  .event (.qry (.modeOf w) (.mode (s.queryMode w).1)) rfl rfl rfl rfl rfl rfl

theorem Handled.queryVfo (s : State) : Handled s s.queryVfo.2 :=
  .event (.qry .activeVfo (.vfo s.queryVfo.1)) rfl rfl rfl rfl rfl rfl

theorem Handled.queryLevel (s : State) (f : LevelField) : Handled s (s.queryLevel f).2 :=
  .event (.qry (.level f) (.level (s.queryLevel f).1)) rfl rfl rfl rfl rfl rfl

theorem Handled.queryToggle (s : State) (t : Toggle) : Handled s (s.queryToggle t).2 :=
  .event (.qry (.toggleState t) (.toggle (s.queryToggle t).1)) rfl rfl rfl rfl rfl rfl

theorem Handled.queryWidth (s : State) : Handled s s.queryWidth.2 :=
  .event (.qry .width (.width s.queryWidth.1)) rfl rfl rfl rfl rfl rfl

theorem Handled.submit (s : State) (m : Mutation) : Handled s (s.submit m) :=
  .event (.mut m) rfl rfl rfl rfl rfl rfl

theorem Handled.control (s : State) (c : ControlCall) : Handled s (s.control c) :=
  .event (.ctl c) rfl rfl rfl rfl rfl rfl

theorem Handled.notify (s : State) : Handled s s.notify :=
  .event .notify rfl rfl rfl rfl rfl rfl

theorem changeFreq_handled (w : VfoSel) (hz : Nat) (s : State) : Handled s (changeFreq w hz s).2 := by
  unfold changeFreq
  dsimp only
  split
  · exact .queryFreq s w
  · exact (Handled.queryFreq s w).trans (.submit _ _)

theorem changeMode_handled (w : VfoSel) (m : Option InternalMode) (s : State) : Handled s (changeMode w m s).2 := by
  unfold changeMode
  split
  · exact .refl s
  · dsimp only
    split
    · exact .queryMode s w
    · exact (Handled.queryMode s w).trans (.submit _ _)

theorem changeVfo_handled (v : Option Vfo) (s : State) : Handled s (changeVfo v s).2 := by
  unfold changeVfo
  split
  · exact .refl s
  · dsimp only
    split
    · exact .queryVfo s
    · exact (Handled.queryVfo s).trans (.submit _ _)

theorem readLevel_handled (f : LevelField) (s : State) : Handled s (readLevel f s).2 := by
  unfold readLevel
  dsimp only
  split <;> exact .queryLevel s f

theorem changeLevel_handled (f : LevelField) (n : Nat) (s : State) : Handled s (changeLevel f n s).2 := by
  unfold changeLevel
  dsimp only
  split
  · exact (Handled.queryLevel s f).trans (.control _ _)
  · exact .queryLevel s f

theorem changeToggle_handled (t : Toggle) (b : Byte) (s : State) : Handled s (changeToggle t b s).2 :=
  (Handled.control s _).trans (.notify _)

theorem changeFreq_reply (w : VfoSel) (hz : Nat) (s : State) : (changeFreq w hz s).1 = .ack := rfl

theorem changeMode_reply (w : VfoSel) (m : Option InternalMode) (s : State) :
    (changeMode w m s).1 = .ack ∨ (changeMode w m s).1 = .nak .badValue := by
  unfold changeMode; split <;> simp

theorem changeVfo_reply (v : Option Vfo) (s : State) :
    (changeVfo v s).1 = .ack ∨ (changeVfo v s).1 = .nak .badValue := by
  unfold changeVfo; split <;> simp

theorem readLevel_eq (f : LevelField) (s : State) :
    readLevel f s
      = if levelInRange f s.nextLevel = true then
          (.answer (encodeHighFirst (scaleQuery s.cfg.roundTies f s.nextLevel).toNat 4), (s.queryLevel f).2)
        else (.fault f s.nextLevel, (s.queryLevel f).2) := rfl

theorem changeLevel_eq (f : LevelField) (n : Nat) (s : State) :
    changeLevel f n s
      = if levelInRange f s.nextLevel = true then
          (.ack, (s.queryLevel f).2.control (.applyDelta f (scaleSet s.cfg.divRounding f n s.nextLevel)))
        else (.fault f s.nextLevel, (s.queryLevel f).2) := rfl

/-- A level handler faults only on a value outside its field's range, and on that field (R172). -/
theorem readLevel_fault {f g : LevelField} {v : Int} {s : State} (h : (readLevel f s).1 = .fault g v) :
    g = f ∧ v = s.nextLevel ∧ levelInRange g v = false := by
  rw [readLevel_eq] at h
  split at h
  · cases h
  · cases h; exact ⟨rfl, rfl, by simp_all⟩

theorem changeLevel_fault {f g : LevelField} {n : Nat} {v : Int} {s : State}
    (h : (changeLevel f n s).1 = .fault g v) : g = f ∧ v = s.nextLevel ∧ levelInRange g v = false := by
  rw [changeLevel_eq] at h
  split at h
  · cases h
  · cases h; exact ⟨rfl, rfl, by simp_all⟩

/-- A level query never acknowledges, and its answer is two bytes. -/
theorem readLevel_answer {f : LevelField} {s : State} :
    (readLevel f s).1 ≠ .ack ∧ ∀ payload, (readLevel f s).1 = .answer payload → payload.length = 2 := by
  rw [readLevel_eq]
  split
  · exact ⟨by simp, fun payload h => by cases h; rfl⟩
  · simp

/-- A level set never answers data. -/
theorem changeLevel_answer (f : LevelField) (n : Nat) (s : State) (payload : List Byte) :
    (changeLevel f n s).1 ≠ .answer payload := by
  rw [changeLevel_eq]; split <;> simp

/-- An acknowledgment after a handler's events, as one state over the state before the handler. -/
theorem State.acknowledge_after {s u : State} {e : Env} {es : List Event} (hc : u.cfg = s.cfg) (he : u.env = e)
    (ht : u.trace = s.trace ++ es) (src : Byte) : u.acknowledge src = s.after e es (ackFrame src) := by
  rw [State.acknowledge_eq]
  simp [State.after, hc, he, ht]

/-- A data answer after a handler's events, as one state over the state before the handler. -/
theorem State.answerWith_after {s u : State} {e : Env} {es : List Event} (hc : u.cfg = s.cfg) (he : u.env = e)
    (ht : u.trace = s.trace ++ es) (src : Byte) (head payload : List Byte) :
    u.answerWith src head payload = s.after e es (answerFrame src head payload) := by
  rw [State.answerWith_eq]
  simp [State.after, hc, he, ht]

theorem changeFreq_eq (w : VfoSel) (hz : Nat) (s : State) :
    changeFreq w hz s
      = (.ack, if hz = s.nextFreq then (s.queryFreq w).2 else (s.queryFreq w).2.submit (.setFreq w hz)) := rfl

theorem changeMode_some (w : VfoSel) (m : InternalMode) (s : State) :
    changeMode w (some m) s
      = (.ack, if m = s.nextMode then (s.queryMode w).2 else (s.queryMode w).2.submit (.setMode w m)) := rfl

theorem changeVfo_some (v : Vfo) (s : State) :
    changeVfo (some v) s
      = (.ack, if v = s.nextVfo then s.queryVfo.2 else s.queryVfo.2.submit (.selectVfo v)) := rfl

/-- All that a frequency answer does (R220, R222). -/
theorem conclude_answerFreq (w : VfoSel) (s : State) (src : Byte) (head : List Byte) :
    conclude src head (answerFreq w s)
      = .next (s.after s.env.tookFreq [.qry (.freqOf w) (.freq s.nextFreq)]
          (answerFrame src head (encodeLowFirst s.nextFreq 10))) :=
  congrArg Host.Outcome.next (State.answerWith_after (s := s) (u := (s.queryFreq w).2) rfl rfl rfl _ _ _)

/-- All that compare-then-submit of a frequency does (R240). -/
theorem conclude_changeFreq (w : VfoSel) (hz : Nat) (s : State) (src : Byte) (head : List Byte) :
    conclude src head (changeFreq w hz s)
      = .next (s.after s.env.tookFreq
          (.qry (.freqOf w) (.freq s.nextFreq) :: if hz = s.nextFreq then [] else [.mut (.setFreq w hz)])
          (ackFrame src)) := by
  rw [changeFreq_eq]
  refine congrArg Host.Outcome.next (State.acknowledge_after ?_ ?_ ?_ src) <;> dsimp only <;> split <;> simp

/-- All that compare-then-submit of a mode does (R240, R243, R247). -/
theorem conclude_changeMode (w : VfoSel) (m : Option InternalMode) (s : State) (src : Byte) (head : List Byte) :
    conclude src head (changeMode w m s)
      = .next (match m with
        | none => s.after s.env [.log (.nak .badValue)] (nakFrame s.cfg src)
        | some m => s.after s.env.tookMode
            (.qry (.modeOf w) (.mode s.nextMode) :: if m = s.nextMode then [] else [.mut (.setMode w m)])
            (ackFrame src)) := by
  cases m with
  | none => exact congrArg Host.Outcome.next (State.negativeAck_eq _ _ _)
  | some m =>
    rw [changeMode_some]
    refine congrArg Host.Outcome.next (State.acknowledge_after ?_ ?_ ?_ src) <;> dsimp only <;> split <;> simp

/-- All that compare-then-submit of the active VFO does (R240, R244). -/
theorem conclude_changeVfo (v : Option Vfo) (s : State) (src : Byte) (head : List Byte) :
    conclude src head (changeVfo v s)
      = .next (match v with
        | none => s.after s.env [.log (.nak .badValue)] (nakFrame s.cfg src)
        | some v => s.after s.env.tookVfo
            (.qry .activeVfo (.vfo s.nextVfo) :: if v = s.nextVfo then [] else [.mut (.selectVfo v)])
            (ackFrame src)) := by
  cases v with
  | none => exact congrArg Host.Outcome.next (State.negativeAck_eq _ _ _)
  | some v =>
    rw [changeVfo_some]
    refine congrArg Host.Outcome.next (State.acknowledge_after ?_ ?_ ?_ src) <;> dsimp only <;> split <;> simp

/-- The state in which a level handler faults (R306, R35). -/
theorem State.queryLevel_raiseFault (s : State) (f : LevelField) (v : Int) :
    (s.queryLevel f).2.raiseFault f v
      = { s with
          phase := .faulted f v
          env := s.env.tookLevel
          trace := s.trace ++ [.qry (.level f) (.level s.nextLevel)] } := rfl

/-- All that a level query does (R260, R172). -/
theorem conclude_readLevel (f : LevelField) (s : State) (src : Byte) (head : List Byte) :
    conclude src head (readLevel f s)
      = .next (if levelInRange f s.nextLevel = true then
          s.after s.env.tookLevel [.qry (.level f) (.level s.nextLevel)]
            (answerFrame src head (encodeHighFirst (scaleQuery s.cfg.roundTies f s.nextLevel).toNat 4))
        else (s.queryLevel f).2.raiseFault f s.nextLevel) := by
  rw [readLevel_eq]
  by_cases h : levelInRange f s.nextLevel = true
  · rw [if_pos h, if_pos h]
    exact congrArg Host.Outcome.next (State.answerWith_after (s := s) (u := (s.queryLevel f).2) rfl rfl rfl _ _ _)
  · rw [if_neg h, if_neg h]
    rfl

/-- All that a level set does (R260, R172). -/
theorem conclude_changeLevel (f : LevelField) (n : Nat) (s : State) (src : Byte) (head : List Byte) :
    conclude src head (changeLevel f n s)
      = .next (if levelInRange f s.nextLevel = true then
          s.after s.env.tookLevel
            [.qry (.level f) (.level s.nextLevel),
              .ctl (.applyDelta f (scaleSet s.cfg.divRounding f n s.nextLevel))]
            (ackFrame src)
        else (s.queryLevel f).2.raiseFault f s.nextLevel) := by
  rw [changeLevel_eq]
  by_cases h : levelInRange f s.nextLevel = true
  · rw [if_pos h, if_pos h]
    refine congrArg Host.Outcome.next (State.acknowledge_after ?_ ?_ ?_ src) <;> simp
  · rw [if_neg h, if_neg h]
    rfl

/-- All that a toggle query does (R275). -/
theorem conclude_readToggle (t : Toggle) (s : State) (src : Byte) (head : List Byte) :
    conclude src head (readToggle t s)
      = .next (s.after s.env.tookToggle [.qry (.toggleState t) (.toggle s.nextToggle)]
          (answerFrame src head [s.nextToggle])) :=
  congrArg Host.Outcome.next (State.answerWith_after (s := s) (u := (s.queryToggle t).2) rfl rfl rfl _ _ _)

/-- All that a toggle set does (R275). -/
theorem conclude_changeToggle (t : Toggle) (b : Byte) (s : State) (src : Byte) (head : List Byte) :
    conclude src head (changeToggle t b s)
      = .next (s.after s.env [.ctl (.setToggle t b), .notify] (ackFrame src)) := by
  unfold changeToggle
  refine congrArg Host.Outcome.next (State.acknowledge_after ?_ ?_ ?_ src) <;> simp

/-- What `exec` can do, said once: a handler's events, then its reply. A set is acknowledged or refused by NAK, a query answered
with as many bytes as R80 gives, and a fault is that of a level field whose answer is out of its range. -/
theorem exec_cases (i : Instr) (s : State) :
    ∃ r u, exec i s = .next (u.settle i.addrs.2 (i.handler.head s.cfg) r) ∧ Handled s u
      ∧ (r = .ack → i.payload ≠ [])
      ∧ (∀ payload, r = .answer payload →
        i.payload = [] ∧ answerLength s.cfg i.handler = some payload.length)
      ∧ ∀ f v, r = .fault f v → i.handler = .level f ∧ v = s.nextLevel ∧ levelInRange f v = false := by
  cases i
  case rdFreq | selFreqQ =>
    exact ⟨_, _, rfl, .queryFreq s _, by simp [answerFreq], fun _ h => by cases h; exact ⟨rfl, rfl⟩, by simp [answerFreq]⟩
  case rdMode | selModeQ =>
    exact ⟨_, _, rfl, .queryMode s _, by simp, fun _ h => by cases h; exact ⟨rfl, rfl⟩, by simp⟩
  case memWidthQ =>
    refine ⟨_, _, rfl, .queryWidth s, by simp, fun _ h => ?_, by simp⟩
    cases h
    refine ⟨rfl, ?_⟩
    simp only [Instr.handler, answerLength, encodeHighFirst]
    split <;> simp <;> omega
  case rdTrxid => exact ⟨_, _, rfl, .refl s, by simp, fun _ h => by cases h; exact ⟨rfl, rfl⟩, by simp⟩
  case setFreq | selFreqS =>
    exact ⟨_, _, rfl, changeFreq_handled _ _ s, by simp [Instr.payload], by simp [changeFreq], by simp [changeFreq]⟩
  case setMode | setModeFil | selModeS =>
    refine ⟨_, _, rfl, changeMode_handled _ _ s, by simp [Instr.payload], fun _ h => ?_, fun _ _ h => ?_⟩ <;>
      rcases changeMode_reply _ _ _ with k | k <;> exact absurd (k.symm.trans h) (by simp)
  case setVfo =>
    refine ⟨_, _, rfl, changeVfo_handled _ s, by simp [Instr.payload], fun _ h => ?_, fun _ _ h => ?_⟩ <;>
      rcases changeVfo_reply _ _ with k | k <;> exact absurd (k.symm.trans h) (by simp)
  all_goals first
    | exact ⟨_, _, rfl, readLevel_handled _ s, fun h => absurd h readLevel_answer.1,
        fun _ h => ⟨rfl, congrArg some (readLevel_answer.2 _ h).symm⟩,
        fun _ _ h => by obtain ⟨rfl, hv⟩ := readLevel_fault h; exact ⟨rfl, hv⟩⟩
    | exact ⟨_, _, rfl, changeLevel_handled _ _ s, by simp [Instr.payload],
        fun _ h => absurd h (changeLevel_answer _ _ _ _),
        fun _ _ h => by obtain ⟨rfl, hv⟩ := changeLevel_fault h; exact ⟨rfl, hv⟩⟩
    | exact ⟨_, _, rfl, .queryToggle s _, by simp [readToggle], fun _ h => by cases h; exact ⟨rfl, rfl⟩,
        by simp [readToggle]⟩
    | exact ⟨_, _, rfl, changeToggle_handled _ _ s, by simp [Instr.payload], by simp [changeToggle],
        by simp [changeToggle]⟩

end Sys2Proof.Machine
end

