-- ==== Sys2Proof/Laws/PerInstr.lean ====
section
/-! SUPPORT. Statements for every instruction, one lemma per constructor. `EncodeShape`: the bytes of a well-formed
instruction are one complete frame of 6 to 12 bytes (30_encoding.md R70, R72, R80; 70_reset_and_hazards.md R353). -/

namespace Sys2Proof.Laws

open Machine

/-- The encoding of `i` is a complete frame of 6 to 12 bytes. -/
def EncodeShape.Statement (i : Instr) : Prop :=
  ∀ cfg : Config, cfg.wf = true → cfg.sendable = true → i.wf = true →
    isFrame (encode cfg i) = true ∧ 6 ≤ (encode cfg i).length ∧ (encode cfg i).length ≤ 12

/-- The shape follows from the payload's length: at most 5 bytes, and 5 only behind an address, CMD and SUB. -/
theorem EncodeShape.of_payload {i : Instr} (h : i.payload.length ≤ 5) : EncodeShape.Statement i := by
  intro cfg hc hs hi
  rw [Instr.wf_eq, clearOfEnd_cons, clearOfEnd_cons] at hi
  have hl := head_length cfg i.handler
  refine ⟨isFrame_iff.2 ⟨[preByte, preByte, i.addrs.1, i.addrs.2] ++ i.handler.head cfg ++ i.payload, rfl, ?_⟩, ?_, ?_⟩
  · have hp : preByte ≠ endByte := by decide
    simp only [clearOfEnd_append, clearOfEnd_cons, clearOfEnd_nil]
    exact ⟨⟨⟨hp, hp, hi.1, hi.2.1, trivial⟩, head_clear hc hs _⟩, hi.2.2⟩
  · simp only [encode, List.length_append, List.length_cons, List.length_nil]; omega
  · simp only [encode, List.length_append, List.length_cons, List.length_nil]; omega

theorem EncodeShape.rdFreq (dst src : Byte) :
    EncodeShape.Statement (.rdFreq dst src) := EncodeShape.of_payload (by simp [Instr.payload])

theorem EncodeShape.rdMode (dst src : Byte) :
    EncodeShape.Statement (.rdMode dst src) := EncodeShape.of_payload (by simp [Instr.payload])

theorem EncodeShape.setFreq (dst src f0 f1 f2 f3 f4 : Byte) :
    EncodeShape.Statement (.setFreq dst src f0 f1 f2 f3 f4) := EncodeShape.of_payload (by simp [Instr.payload])

theorem EncodeShape.setMode (dst src mm : Byte) :
    EncodeShape.Statement (.setMode dst src mm) := EncodeShape.of_payload (by simp [Instr.payload])

theorem EncodeShape.setModeFil (dst src mm ff : Byte) :
    EncodeShape.Statement (.setModeFil dst src mm ff) := EncodeShape.of_payload (by simp [Instr.payload])

theorem EncodeShape.setVfo (dst src vv : Byte) :
    EncodeShape.Statement (.setVfo dst src vv) := EncodeShape.of_payload (by simp [Instr.payload])

theorem EncodeShape.spltQ (dst src : Byte) :
    EncodeShape.Statement (.spltQ dst src) := EncodeShape.of_payload (by simp [Instr.payload])

theorem EncodeShape.spltS (dst src bb : Byte) :
    EncodeShape.Statement (.spltS dst src bb) := EncodeShape.of_payload (by simp [Instr.payload])

theorem EncodeShape.attQ (dst src : Byte) :
    EncodeShape.Statement (.attQ dst src) := EncodeShape.of_payload (by simp [Instr.payload])

theorem EncodeShape.attS (dst src bb : Byte) :
    EncodeShape.Statement (.attS dst src bb) := EncodeShape.of_payload (by simp [Instr.payload])

theorem EncodeShape.lvlAfQ (dst src : Byte) :
    EncodeShape.Statement (.lvlAfQ dst src) := EncodeShape.of_payload (by simp [Instr.payload])

theorem EncodeShape.lvlAfS (dst src h l : Byte) :
    EncodeShape.Statement (.lvlAfS dst src h l) := EncodeShape.of_payload (by simp [Instr.payload])

theorem EncodeShape.lvlRfQ (dst src : Byte) :
    EncodeShape.Statement (.lvlRfQ dst src) := EncodeShape.of_payload (by simp [Instr.payload])

theorem EncodeShape.lvlRfS (dst src h l : Byte) :
    EncodeShape.Statement (.lvlRfS dst src h l) := EncodeShape.of_payload (by simp [Instr.payload])

theorem EncodeShape.lvlSqlQ (dst src : Byte) :
    EncodeShape.Statement (.lvlSqlQ dst src) := EncodeShape.of_payload (by simp [Instr.payload])

theorem EncodeShape.lvlSqlS (dst src h l : Byte) :
    EncodeShape.Statement (.lvlSqlS dst src h l) := EncodeShape.of_payload (by simp [Instr.payload])

theorem EncodeShape.lvlNrQ (dst src : Byte) :
    EncodeShape.Statement (.lvlNrQ dst src) := EncodeShape.of_payload (by simp [Instr.payload])

theorem EncodeShape.lvlNrS (dst src h l : Byte) :
    EncodeShape.Statement (.lvlNrS dst src h l) := EncodeShape.of_payload (by simp [Instr.payload])

theorem EncodeShape.lvlNbQ (dst src : Byte) :
    EncodeShape.Statement (.lvlNbQ dst src) := EncodeShape.of_payload (by simp [Instr.payload])

theorem EncodeShape.lvlNbS (dst src h l : Byte) :
    EncodeShape.Statement (.lvlNbS dst src h l) := EncodeShape.of_payload (by simp [Instr.payload])

theorem EncodeShape.lvlPwrQ (dst src : Byte) :
    EncodeShape.Statement (.lvlPwrQ dst src) := EncodeShape.of_payload (by simp [Instr.payload])

theorem EncodeShape.lvlPwrS (dst src h l : Byte) :
    EncodeShape.Statement (.lvlPwrS dst src h l) := EncodeShape.of_payload (by simp [Instr.payload])

theorem EncodeShape.lvlDnfQ (dst src : Byte) :
    EncodeShape.Statement (.lvlDnfQ dst src) := EncodeShape.of_payload (by simp [Instr.payload])

theorem EncodeShape.lvlDnfS (dst src h l : Byte) :
    EncodeShape.Statement (.lvlDnfS dst src h l) := EncodeShape.of_payload (by simp [Instr.payload])

theorem EncodeShape.funcPreampQ (dst src : Byte) :
    EncodeShape.Statement (.funcPreampQ dst src) := EncodeShape.of_payload (by simp [Instr.payload])

theorem EncodeShape.funcPreampS (dst src bb : Byte) :
    EncodeShape.Statement (.funcPreampS dst src bb) := EncodeShape.of_payload (by simp [Instr.payload])

theorem EncodeShape.funcAgcQ (dst src : Byte) :
    EncodeShape.Statement (.funcAgcQ dst src) := EncodeShape.of_payload (by simp [Instr.payload])

theorem EncodeShape.funcAgcS (dst src bb : Byte) :
    EncodeShape.Statement (.funcAgcS dst src bb) := EncodeShape.of_payload (by simp [Instr.payload])

theorem EncodeShape.funcNbQ (dst src : Byte) :
    EncodeShape.Statement (.funcNbQ dst src) := EncodeShape.of_payload (by simp [Instr.payload])

theorem EncodeShape.funcNbS (dst src bb : Byte) :
    EncodeShape.Statement (.funcNbS dst src bb) := EncodeShape.of_payload (by simp [Instr.payload])

theorem EncodeShape.funcNrQ (dst src : Byte) :
    EncodeShape.Statement (.funcNrQ dst src) := EncodeShape.of_payload (by simp [Instr.payload])

theorem EncodeShape.funcNrS (dst src bb : Byte) :
    EncodeShape.Statement (.funcNrS dst src bb) := EncodeShape.of_payload (by simp [Instr.payload])

theorem EncodeShape.funcDnfQ (dst src : Byte) :
    EncodeShape.Statement (.funcDnfQ dst src) := EncodeShape.of_payload (by simp [Instr.payload])

theorem EncodeShape.funcDnfS (dst src bb : Byte) :
    EncodeShape.Statement (.funcDnfS dst src bb) := EncodeShape.of_payload (by simp [Instr.payload])

theorem EncodeShape.rdTrxid (dst src : Byte) :
    EncodeShape.Statement (.rdTrxid dst src) := EncodeShape.of_payload (by simp [Instr.payload])

theorem EncodeShape.memWidthQ (dst src : Byte) :
    EncodeShape.Statement (.memWidthQ dst src) := EncodeShape.of_payload (by simp [Instr.payload])

theorem EncodeShape.pttQ (dst src : Byte) :
    EncodeShape.Statement (.pttQ dst src) := EncodeShape.of_payload (by simp [Instr.payload])

theorem EncodeShape.pttS (dst src bb : Byte) :
    EncodeShape.Statement (.pttS dst src bb) := EncodeShape.of_payload (by simp [Instr.payload])

theorem EncodeShape.atuQ (dst src : Byte) :
    EncodeShape.Statement (.atuQ dst src) := EncodeShape.of_payload (by simp [Instr.payload])

theorem EncodeShape.atuS (dst src bb : Byte) :
    EncodeShape.Statement (.atuS dst src bb) := EncodeShape.of_payload (by simp [Instr.payload])

theorem EncodeShape.selFreqQ (dst src : Byte) (w : VfoSel) :
    EncodeShape.Statement (.selFreqQ dst src w) := EncodeShape.of_payload (by simp [Instr.payload])

theorem EncodeShape.selFreqS (dst src : Byte) (w : VfoSel) (f0 f1 f2 f3 f4 : Byte) :
    EncodeShape.Statement (.selFreqS dst src w f0 f1 f2 f3 f4) := EncodeShape.of_payload (by simp [Instr.payload])

theorem EncodeShape.selModeQ (dst src : Byte) (w : VfoSel) :
    EncodeShape.Statement (.selModeQ dst src w) := EncodeShape.of_payload (by simp [Instr.payload])

theorem EncodeShape.selModeS (dst src : Byte) (w : VfoSel) (mm dd ff : Byte) :
    EncodeShape.Statement (.selModeS dst src w mm dd ff) := EncodeShape.of_payload (by simp [Instr.payload])

end Sys2Proof.Laws
end

