-- ==== Sys2Proof/Tests/Slice0.lean ====
section
/-! SUPPORT. Our own tests, each on fixed values: ill-formed terms are refused, words written out from the spec's encodings
(30_encoding.md R80, R76, R77) decode to their instructions, the vectors of 95_test_vectors.md, and for every obligation with
hypotheses a state that meets them. Expected results are the spec's, not the model's. -/

namespace Sys2Proof.Tests

open Sys2Proof Sys2Proof.Machine

/-- The reset state with the inputs `env`. -/
def started (env : Env) : State := { State.reset with env := env }

/-- A block with a complete frame in its buffer. -/
def loaded (cfg : Config) (env : Env) (req : List Byte) : State :=
  { State.resetWith cfg with phase := .dispatch, buf := Memory.ofBytesFrom 0 req, len := req.length, env := env }

/-- One dispatch step on a frame, with the default parameters: the events after the echo, and the counter. -/
def served (env : Env) (req : List Byte) : Option (List Event × Nat) :=
  match step (loaded Config.defaults env req) with
  | .next t => some (t.trace.drop req.length, t.len)
  | _ => none

/-- The same with a configuration. -/
def servedWith (cfg : Config) (env : Env) (req : List Byte) : Option (List Event) :=
  match step (loaded cfg env req) with
  | .next t => some (t.trace.drop req.length)
  | _ => none

/-- The bytes a step sends after its echo. -/
def replied (env : Env) (req : List Byte) : Option (List Byte) := (served env req).map (fun p => sentBytes p.1)

/-- Whether a result is a next state. -/
def goesOn : Result → Bool
  | .next _ => true
  | _ => false

def freqEnv (hz : Nat) : Env := { Env.free with freqs := [hz] }
def modeEnv (m : InternalMode) : Env := { Env.free with modes := [m] }
def vfoEnv (v : Vfo) : Env := { Env.free with vfos := [v] }
def levelEnv (v : Int) : Env := { Env.free with levels := [v] }
def toggleEnv (b : Byte) : Env := { Env.free with toggles := [b] }
def widthEnv (n : Nat) : Env := { Env.free with widths := [n] }

/-- The defaults with ATT_SPLT_HAVE_SUB true (D29). -/
def subConfig : Config := { Config.defaults with attSpltSubs := some { att := 0x5A#8, splt := 0x6B#8 } }

/-- The ACK of S2. -/
def ackE0 : List Event := [0xFE#8, 0xFE#8, 0xE0#8, 0xA4#8, 0xFB#8, 0xFD#8].map Event.tx

/-- The NAK of the D vectors, with its log event. -/
def nakE0 (r : NakReason) : List Event :=
  .log (.nak r) :: [0xFE#8, 0xFE#8, 0xE0#8, 0xA4#8, 0xFA#8, 0xFD#8].map Event.tx

/-! Well-formedness: a byte equal to END is refused in every operand position (R72). -/

theorem test_wf_dst : (Instr.rdFreq 0xFD#8 0xE0#8).wf = false := by decide
theorem test_wf_src : (Instr.rdMode 0xA4#8 0xFD#8).wf = false := by decide
theorem test_wf_freq : (Instr.setFreq 0xA4#8 0xE0#8 0x00#8 0x00#8 0x25#8 0x14#8 0xFD#8).wf = false := by decide
theorem test_wf_mode : (Instr.setMode 0xA4#8 0xE0#8 0xFD#8).wf = false := by decide
theorem test_wf_filter : (Instr.setModeFil 0xA4#8 0xE0#8 0x01#8 0xFD#8).wf = false := by decide
theorem test_wf_vfo : (Instr.setVfo 0xA4#8 0xE0#8 0xFD#8).wf = false := by decide
theorem test_wf_level : (Instr.lvlAfS 0xA4#8 0xE0#8 0x01#8 0xFD#8).wf = false := by decide
theorem test_wf_raw : (Instr.pttS 0xA4#8 0xE0#8 0xFD#8).wf = false := by decide
theorem test_wf_data : (Instr.selModeS 0xA4#8 0xE0#8 .selected 0x01#8 0xFD#8 0x01#8).wf = false := by decide
theorem test_wf_selected_freq : (Instr.selFreqS 0xA4#8 0xE0#8 .selected 0xFD#8 0x00#8 0x00#8 0x00#8 0x00#8).wf = false := by
  decide
theorem test_wf_accepts : (Instr.selModeS 0xA4#8 0xE0#8 .unselected 0xFF#8 0xFE#8 0x00#8).wf = true := by decide

/-! Configurations that R7 refuses. -/

theorem test_config_duplicate_command : ({ Config.defaults with cRdMode := 0x03#8 } : Config).wf = false := by decide
theorem test_config_reserved_command : ({ Config.defaults with cCtlMem := 0xFD#8 } : Config).wf = false := by decide
theorem test_config_duplicate_sub : ({ Config.defaults with subLvlRf := 0x01#8 } : Config).wf = false := by decide
theorem test_config_duplicate_mode : ({ Config.defaults with modeUsb := 0x00#8 } : Config).wf = false := by decide
theorem test_config_no_width_digits : ({ Config.defaults with widthDigits := 0 } : Config).wf = false := by decide
theorem test_config_with_subs : subConfig.wf = true := by decide

/-! Decoding: R76, R77 and R80 give each word; DST = A4, SRC = E0. -/

theorem test_decode_read_only :
    decodeFrame Config.defaults [0xFE#8, 0xFE#8, 0xA4#8, 0xE0#8, 0x03#8, 0xFD#8]
        = .ok (.rdFreq 0xA4#8 0xE0#8)
    ∧ decodeFrame Config.defaults [0xFE#8, 0xFE#8, 0xA4#8, 0xE0#8, 0x04#8, 0xFD#8]
        = .ok (.rdMode 0xA4#8 0xE0#8)
    ∧ decodeFrame Config.defaults [0xFE#8, 0xFE#8, 0xA4#8, 0xE0#8, 0x25#8, 0x00#8, 0xFD#8]
        = .ok (.selFreqQ 0xA4#8 0xE0#8 .selected)
    ∧ decodeFrame Config.defaults [0xFE#8, 0xFE#8, 0xA4#8, 0xE0#8, 0x26#8, 0x01#8, 0xFD#8]
        = .ok (.selModeQ 0xA4#8 0xE0#8 .unselected)
    ∧ decodeFrame Config.defaults [0xFE#8, 0xFE#8, 0xA4#8, 0xE0#8, 0x1A#8, 0x03#8, 0xFD#8]
        = .ok (.memWidthQ 0xA4#8 0xE0#8)
    ∧ decodeFrame Config.defaults [0xFE#8, 0xFE#8, 0xA4#8, 0xE0#8, 0x19#8, 0x00#8, 0xFD#8]
        = .ok (.rdTrxid 0xA4#8 0xE0#8) := by decide

theorem test_decode_mutating :
    decodeFrame Config.defaults [0xFE#8, 0xFE#8, 0xA4#8, 0xE0#8, 0x05#8, 0x00#8, 0x00#8, 0x25#8, 0x14#8, 0x00#8, 0xFD#8]
        = .ok (.setFreq 0xA4#8 0xE0#8 0x00#8 0x00#8 0x25#8 0x14#8 0x00#8)
    ∧ decodeFrame Config.defaults [0xFE#8, 0xFE#8, 0xA4#8, 0xE0#8, 0x06#8, 0x01#8, 0xFD#8]
        = .ok (.setMode 0xA4#8 0xE0#8 0x01#8)
    ∧ decodeFrame Config.defaults [0xFE#8, 0xFE#8, 0xA4#8, 0xE0#8, 0x06#8, 0x01#8, 0x03#8, 0xFD#8]
        = .ok (.setModeFil 0xA4#8 0xE0#8 0x01#8 0x03#8)
    ∧ decodeFrame Config.defaults [0xFE#8, 0xFE#8, 0xA4#8, 0xE0#8, 0x07#8, 0x01#8, 0xFD#8]
        = .ok (.setVfo 0xA4#8 0xE0#8 0x01#8)
    ∧ decodeFrame Config.defaults [0xFE#8, 0xFE#8, 0xA4#8, 0xE0#8, 0x25#8, 0x01#8, 0x05#8, 0x40#8, 0x07#8, 0x07#8, 0x00#8, 0xFD#8]
        = .ok (.selFreqS 0xA4#8 0xE0#8 .unselected 0x05#8 0x40#8 0x07#8 0x07#8 0x00#8)
    ∧ decodeFrame Config.defaults [0xFE#8, 0xFE#8, 0xA4#8, 0xE0#8, 0x26#8, 0x00#8, 0x03#8, 0x01#8, 0x02#8, 0xFD#8]
        = .ok (.selModeS 0xA4#8 0xE0#8 .selected 0x03#8 0x01#8 0x02#8) := by decide

theorem test_decode_level_query :
    decodeFrame Config.defaults [0xFE#8, 0xFE#8, 0xA4#8, 0xE0#8, 0x14#8, 0x01#8, 0xFD#8]
        = .ok (.lvlAfQ 0xA4#8 0xE0#8)
    ∧ decodeFrame Config.defaults [0xFE#8, 0xFE#8, 0xA4#8, 0xE0#8, 0x14#8, 0x02#8, 0xFD#8]
        = .ok (.lvlRfQ 0xA4#8 0xE0#8)
    ∧ decodeFrame Config.defaults [0xFE#8, 0xFE#8, 0xA4#8, 0xE0#8, 0x14#8, 0x03#8, 0xFD#8]
        = .ok (.lvlSqlQ 0xA4#8 0xE0#8)
    ∧ decodeFrame Config.defaults [0xFE#8, 0xFE#8, 0xA4#8, 0xE0#8, 0x14#8, 0x06#8, 0xFD#8]
        = .ok (.lvlNrQ 0xA4#8 0xE0#8)
    ∧ decodeFrame Config.defaults [0xFE#8, 0xFE#8, 0xA4#8, 0xE0#8, 0x14#8, 0x0A#8, 0xFD#8]
        = .ok (.lvlPwrQ 0xA4#8 0xE0#8)
    ∧ decodeFrame Config.defaults [0xFE#8, 0xFE#8, 0xA4#8, 0xE0#8, 0x14#8, 0x0D#8, 0xFD#8]
        = .ok (.lvlDnfQ 0xA4#8 0xE0#8)
    ∧ decodeFrame Config.defaults [0xFE#8, 0xFE#8, 0xA4#8, 0xE0#8, 0x14#8, 0x12#8, 0xFD#8]
        = .ok (.lvlNbQ 0xA4#8 0xE0#8) := by decide

theorem test_decode_level_set :
    decodeFrame Config.defaults [0xFE#8, 0xFE#8, 0xA4#8, 0xE0#8, 0x14#8, 0x01#8, 0x01#8, 0x28#8, 0xFD#8]
        = .ok (.lvlAfS 0xA4#8 0xE0#8 0x01#8 0x28#8)
    ∧ decodeFrame Config.defaults [0xFE#8, 0xFE#8, 0xA4#8, 0xE0#8, 0x14#8, 0x02#8, 0x01#8, 0x28#8, 0xFD#8]
        = .ok (.lvlRfS 0xA4#8 0xE0#8 0x01#8 0x28#8)
    ∧ decodeFrame Config.defaults [0xFE#8, 0xFE#8, 0xA4#8, 0xE0#8, 0x14#8, 0x03#8, 0x01#8, 0x28#8, 0xFD#8]
        = .ok (.lvlSqlS 0xA4#8 0xE0#8 0x01#8 0x28#8)
    ∧ decodeFrame Config.defaults [0xFE#8, 0xFE#8, 0xA4#8, 0xE0#8, 0x14#8, 0x06#8, 0x01#8, 0x28#8, 0xFD#8]
        = .ok (.lvlNrS 0xA4#8 0xE0#8 0x01#8 0x28#8)
    ∧ decodeFrame Config.defaults [0xFE#8, 0xFE#8, 0xA4#8, 0xE0#8, 0x14#8, 0x0A#8, 0x01#8, 0x28#8, 0xFD#8]
        = .ok (.lvlPwrS 0xA4#8 0xE0#8 0x01#8 0x28#8)
    ∧ decodeFrame Config.defaults [0xFE#8, 0xFE#8, 0xA4#8, 0xE0#8, 0x14#8, 0x0D#8, 0x01#8, 0x28#8, 0xFD#8]
        = .ok (.lvlDnfS 0xA4#8 0xE0#8 0x01#8 0x28#8)
    ∧ decodeFrame Config.defaults [0xFE#8, 0xFE#8, 0xA4#8, 0xE0#8, 0x14#8, 0x12#8, 0x01#8, 0x28#8, 0xFD#8]
        = .ok (.lvlNbS 0xA4#8 0xE0#8 0x01#8 0x28#8) := by decide

theorem test_decode_toggle_query :
    decodeFrame Config.defaults [0xFE#8, 0xFE#8, 0xA4#8, 0xE0#8, 0x16#8, 0x02#8, 0xFD#8]
        = .ok (.funcPreampQ 0xA4#8 0xE0#8)
    ∧ decodeFrame Config.defaults [0xFE#8, 0xFE#8, 0xA4#8, 0xE0#8, 0x16#8, 0x12#8, 0xFD#8]
        = .ok (.funcAgcQ 0xA4#8 0xE0#8)
    ∧ decodeFrame Config.defaults [0xFE#8, 0xFE#8, 0xA4#8, 0xE0#8, 0x16#8, 0x22#8, 0xFD#8]
        = .ok (.funcNbQ 0xA4#8 0xE0#8)
    ∧ decodeFrame Config.defaults [0xFE#8, 0xFE#8, 0xA4#8, 0xE0#8, 0x16#8, 0x40#8, 0xFD#8]
        = .ok (.funcNrQ 0xA4#8 0xE0#8)
    ∧ decodeFrame Config.defaults [0xFE#8, 0xFE#8, 0xA4#8, 0xE0#8, 0x16#8, 0x48#8, 0xFD#8]
        = .ok (.funcDnfQ 0xA4#8 0xE0#8)
    ∧ decodeFrame Config.defaults [0xFE#8, 0xFE#8, 0xA4#8, 0xE0#8, 0x1C#8, 0x00#8, 0xFD#8]
        = .ok (.pttQ 0xA4#8 0xE0#8)
    ∧ decodeFrame Config.defaults [0xFE#8, 0xFE#8, 0xA4#8, 0xE0#8, 0x1C#8, 0x01#8, 0xFD#8]
        = .ok (.atuQ 0xA4#8 0xE0#8)
    ∧ decodeFrame Config.defaults [0xFE#8, 0xFE#8, 0xA4#8, 0xE0#8, 0x11#8, 0xFD#8]
        = .ok (.attQ 0xA4#8 0xE0#8)
    ∧ decodeFrame Config.defaults [0xFE#8, 0xFE#8, 0xA4#8, 0xE0#8, 0x0F#8, 0xFD#8]
        = .ok (.spltQ 0xA4#8 0xE0#8) := by decide

theorem test_decode_toggle_set :
    decodeFrame Config.defaults [0xFE#8, 0xFE#8, 0xA4#8, 0xE0#8, 0x16#8, 0x02#8, 0x7E#8, 0xFD#8]
        = .ok (.funcPreampS 0xA4#8 0xE0#8 0x7E#8)
    ∧ decodeFrame Config.defaults [0xFE#8, 0xFE#8, 0xA4#8, 0xE0#8, 0x16#8, 0x12#8, 0x7E#8, 0xFD#8]
        = .ok (.funcAgcS 0xA4#8 0xE0#8 0x7E#8)
    ∧ decodeFrame Config.defaults [0xFE#8, 0xFE#8, 0xA4#8, 0xE0#8, 0x16#8, 0x22#8, 0x7E#8, 0xFD#8]
        = .ok (.funcNbS 0xA4#8 0xE0#8 0x7E#8)
    ∧ decodeFrame Config.defaults [0xFE#8, 0xFE#8, 0xA4#8, 0xE0#8, 0x16#8, 0x40#8, 0x7E#8, 0xFD#8]
        = .ok (.funcNrS 0xA4#8 0xE0#8 0x7E#8)
    ∧ decodeFrame Config.defaults [0xFE#8, 0xFE#8, 0xA4#8, 0xE0#8, 0x16#8, 0x48#8, 0x7E#8, 0xFD#8]
        = .ok (.funcDnfS 0xA4#8 0xE0#8 0x7E#8)
    ∧ decodeFrame Config.defaults [0xFE#8, 0xFE#8, 0xA4#8, 0xE0#8, 0x1C#8, 0x00#8, 0x7E#8, 0xFD#8]
        = .ok (.pttS 0xA4#8 0xE0#8 0x7E#8)
    ∧ decodeFrame Config.defaults [0xFE#8, 0xFE#8, 0xA4#8, 0xE0#8, 0x1C#8, 0x01#8, 0x7E#8, 0xFD#8]
        = .ok (.atuS 0xA4#8 0xE0#8 0x7E#8)
    ∧ decodeFrame Config.defaults [0xFE#8, 0xFE#8, 0xA4#8, 0xE0#8, 0x11#8, 0x7E#8, 0xFD#8]
        = .ok (.attS 0xA4#8 0xE0#8 0x7E#8)
    ∧ decodeFrame Config.defaults [0xFE#8, 0xFE#8, 0xA4#8, 0xE0#8, 0x0F#8, 0x7E#8, 0xFD#8]
        = .ok (.spltS 0xA4#8 0xE0#8 0x7E#8) := by decide

/-- With ATT_SPLT_HAVE_SUB true, ATT and SPLT carry their sub-command byte (D29, C11). -/
theorem test_decode_att_splt_with_sub :
    decodeFrame subConfig [0xFE#8, 0xFE#8, 0xA4#8, 0xE0#8, 0x11#8, 0x5A#8, 0xFD#8] = .ok (.attQ 0xA4#8 0xE0#8)
      ∧ decodeFrame subConfig [0xFE#8, 0xFE#8, 0xA4#8, 0xE0#8, 0x0F#8, 0x6B#8, 0x01#8, 0xFD#8] = .ok (.spltS 0xA4#8 0xE0#8 0x01#8)
      ∧ decodeFrame subConfig [0xFE#8, 0xFE#8, 0xA4#8, 0xE0#8, 0x11#8, 0x01#8, 0xFD#8] = .error (.nak .unknownSub) := by decide

/-- The encoder writes the same words (S2, W9). -/
theorem test_encode :
    encode Config.defaults (.setFreq 0xA4#8 0xE0#8 0x00#8 0x00#8 0x25#8 0x14#8 0x00#8)
        = [0xFE#8, 0xFE#8, 0xA4#8, 0xE0#8, 0x05#8, 0x00#8, 0x00#8, 0x25#8, 0x14#8, 0x00#8, 0xFD#8]
      ∧ encode Config.defaults (.selModeS 0xA4#8 0xE0#8 .unselected 0x01#8 0x00#8 0x01#8)
        = [0xFE#8, 0xFE#8, 0xA4#8, 0xE0#8, 0x26#8, 0x01#8, 0x01#8, 0x00#8, 0x01#8, 0xFD#8] := by decide

/-- The table's word of LVL_AF_S with h = 01, l = 28, its bytes CMD to END, and as a whole frame (R81; log 13). -/
theorem test_table_word :
    decodeTableWord 40 0xFD28010114 = some (.lvlAfS 0x00#8 0x00#8 0x01#8 0x28#8)
      ∧ decodeTableWord 48 0xFD03E0A4FEFE = some (.rdFreq 0xA4#8 0xE0#8)
      ∧ decodeTableWord 16 0x0003 = none := by decide

theorem test_fetch_word :
    goesOn (step (State.reset.withFetchWord 16 0xFD03)) = true
      ∧ (State.reset.withFetchWord 16 0xFD03).request = some [0xFE#8, 0xFE#8, 0x00#8, 0x00#8, 0x03#8, 0xFD#8] := by decide

/-! Framing, routing, form and length (vectors F and D). -/

theorem test_framing :
    (served Env.free [0xFD#8]).map (fun p => p.1.length) = some 0
      ∧ (served Env.free [0xFE#8, 0xA4#8, 0xE0#8, 0x03#8, 0xFD#8]).map (fun p => p.1.length) = some 0
      ∧ (served Env.free [0xFE#8, 0x00#8, 0xA4#8, 0xE0#8, 0x03#8, 0xFD#8]).map (fun p => p.1.length) = some 0
      ∧ (served Env.free [0x00#8, 0xFE#8, 0xFE#8, 0xA4#8, 0xE0#8, 0x03#8, 0xFD#8]).map (fun p => p.1.length) = some 0 := by decide

theorem test_extra_preambles :
    replied Env.free [0xFE#8, 0xFE#8, 0xFE#8, 0xFE#8, 0xA4#8, 0xE0#8, 0x03#8, 0xFD#8] = some [0xFE#8, 0xFE#8, 0xFE#8, 0xA4#8, 0xFA#8, 0xFD#8] := by decide

theorem test_dst_not_checked :
    replied (freqEnv 14250000) [0xFE#8, 0xFE#8, 0x00#8, 0xE0#8, 0x03#8, 0xFD#8]
      = some [0xFE#8, 0xFE#8, 0xE0#8, 0xA4#8, 0x03#8, 0x00#8, 0x00#8, 0x25#8, 0x14#8, 0x00#8, 0xFD#8] := by decide

theorem test_src_is_copied :
    replied (freqEnv 14250000) [0xFE#8, 0xFE#8, 0xA4#8, 0xFE#8, 0x03#8, 0xFD#8]
      = some [0xFE#8, 0xFE#8, 0xFE#8, 0xA4#8, 0x03#8, 0x00#8, 0x00#8, 0x25#8, 0x14#8, 0x00#8, 0xFD#8] := by decide

theorem test_nak_unknown_command :
    served Env.free [0xFE#8, 0xFE#8, 0xA4#8, 0xE0#8, 0xFF#8, 0x01#8, 0xFD#8] = some (nakE0 .unknownCommand, 0)
    ∧ served Env.free [0xFE#8, 0xFE#8, 0xA4#8, 0xE0#8, 0xFF#8, 0xFD#8] = some (nakE0 .unknownCommand, 0) := by decide

theorem test_nak_unknown_sub :
    served Env.free [0xFE#8, 0xFE#8, 0xA4#8, 0xE0#8, 0x14#8, 0x77#8, 0x01#8, 0xFD#8] = some (nakE0 .unknownSub, 0)
    ∧ served Env.free [0xFE#8, 0xFE#8, 0xA4#8, 0xE0#8, 0x14#8, 0xFD#8] = some (nakE0 .unknownSub, 0)
    ∧ served Env.free [0xFE#8, 0xFE#8, 0xA4#8, 0xE0#8, 0x1A#8, 0x00#8, 0xFD#8] = some (nakE0 .unknownSub, 0)
    ∧ served Env.free [0xFE#8, 0xFE#8, 0xA4#8, 0xE0#8, 0x1C#8, 0x02#8, 0xFD#8] = some (nakE0 .unknownSub, 0)
    ∧ served Env.free [0xFE#8, 0xFE#8, 0xA4#8, 0xE0#8, 0x14#8, 0x77#8, 0xFD#8] = some (nakE0 .unknownSub, 0) := by decide

theorem test_nak_bad_form :
    served Env.free [0xFE#8, 0xFE#8, 0xA4#8, 0xE0#8, 0x03#8, 0x00#8, 0xFD#8] = some (nakE0 .badForm, 0)
    ∧ served Env.free [0xFE#8, 0xFE#8, 0xA4#8, 0xE0#8, 0x05#8, 0xFD#8] = some (nakE0 .badForm, 0)
    ∧ served Env.free [0xFE#8, 0xFE#8, 0xA4#8, 0xE0#8, 0x19#8, 0x00#8, 0x01#8, 0xFD#8] = some (nakE0 .badForm, 0)
    ∧ served Env.free [0xFE#8, 0xFE#8, 0xA4#8, 0xE0#8, 0x03#8, 0x00#8, 0x00#8, 0xFD#8] = some (nakE0 .badForm, 0) := by decide

theorem test_nak_bad_length :
    served Env.free [0xFE#8, 0xFE#8, 0xA4#8, 0xE0#8, 0x05#8, 0x00#8, 0x00#8, 0x25#8, 0x14#8, 0xFD#8] = some (nakE0 .badLength, 0)
    ∧ served Env.free [0xFE#8, 0xFE#8, 0xA4#8, 0xE0#8, 0x14#8, 0x01#8, 0x01#8, 0xFD#8] = some (nakE0 .badLength, 0)
    ∧ served Env.free [0xFE#8, 0xFE#8, 0xA4#8, 0xE0#8, 0x11#8, 0x00#8, 0x00#8, 0xFD#8] = some (nakE0 .badLength, 0) := by decide

theorem test_nak_bad_value :
    served Env.free [0xFE#8, 0xFE#8, 0xA4#8, 0xE0#8, 0x07#8, 0x02#8, 0xFD#8] = some (nakE0 .badValue, 0)
    ∧ served Env.free [0xFE#8, 0xFE#8, 0xA4#8, 0xE0#8, 0x06#8, 0x04#8, 0xFD#8] = some (nakE0 .badValue, 0)
    ∧ served Env.free [0xFE#8, 0xFE#8, 0xA4#8, 0xE0#8, 0x26#8, 0x00#8, 0x01#8, 0x02#8, 0x01#8, 0xFD#8] = some (nakE0 .badValue, 0)
    ∧ served Env.free [0xFE#8, 0xFE#8, 0xA4#8, 0xE0#8, 0x26#8, 0x00#8, 0x04#8, 0x05#8, 0x01#8, 0xFD#8] = some (nakE0 .badValue, 0) := by decide

/-! The codec (B), the scaler (K) and the mode translator (M). -/

theorem test_encode_low_first :
    encodeLowFirst 7074000 10 = [0x00#8, 0x40#8, 0x07#8, 0x07#8, 0x00#8] ∧ encodeLowFirst 10000000005 10 = [0x05#8, 0x00#8, 0x00#8, 0x00#8, 0x00#8] := by decide

theorem test_encode_high_first :
    encodeHighFirst 12345 4 = [0x23#8, 0x45#8] ∧ encodeHighFirst 123 3 = [0x01#8, 0x23#8] ∧ encodeHighFirst 7 1 = [0x07#8]
      ∧ encodeHighFirst 31 2 = [0x31#8] ∧ encodeHighFirst 100 2 = [0x00#8] ∧ encodeHighFirst 14250000 10 = [0x00#8, 0x14#8, 0x25#8, 0x00#8, 0x00#8] := by decide

theorem test_decode_high_first :
    decodeHighFirst [0x01#8, 0x28#8] 4 = 128 ∧ decodeHighFirst [0x0F#8, 0xFF#8] 4 = 1665
      ∧ decodeHighFirst [0xFF#8, 0xFF#8] 4 = 16665 ∧ decodeHighFirst [0xAB#8, 0x05#8] 3 = 1105 := by decide

theorem test_decode_low_first :
    decodeLowFirst [0xFF#8, 0xFF#8, 0xFF#8, 0xFF#8, 0xFF#8] 10 = 16666666665 ∧ decodeLowFirst [0x0A#8, 0x00#8, 0x00#8, 0x00#8, 0x00#8] 10 = 10
      ∧ decodeLowFirst [0x00#8, 0x00#8, 0x25#8, 0x14#8, 0x00#8] 10 = 14250000 := by decide

theorem test_scale_query :
    [scaleQuery .halfUp .af 0,
      scaleQuery .halfUp .af 1,
      scaleQuery .halfUp .af 55,
      scaleQuery .halfUp .rf 10,
      scaleQuery .halfUp .sql 40,
      scaleQuery .halfUp .nr 2,
      scaleQuery .halfUp .nr 33,
      scaleQuery .halfUp .nb 5,
      scaleQuery .halfUp .pwr 10,
      scaleQuery .halfUp .pwr 100,
      scaleQuery .halfUp .dnf 100,
      scaleQuery .halfUp .dnf 390,
      scaleQuery .halfUp .dnf 1000,
      scaleQuery .halfUp .dnf 3000]
      = [0, 5, 255, 26, 102, 9, 140, 13, 26, 255, 0, 26, 79, 255] := by decide

theorem test_scale_set :
    [scaleSet .trunc .af 255 0,
      scaleSet .trunc .af 0 55,
      scaleSet .trunc .af 300 0,
      scaleSet .trunc .af 16665 0,
      scaleSet .trunc .rf 255 50,
      scaleSet .trunc .rf 1665 50,
      scaleSet .trunc .sql 128 50,
      scaleSet .trunc .nr 0 33,
      scaleSet .trunc .nr 255 30,
      scaleSet .trunc .nr 1 0,
      scaleSet .trunc .nb 128 0,
      scaleSet .trunc .nb 0 52,
      scaleSet .trunc .pwr 128 55,
      scaleSet .trunc .pwr 255 0,
      scaleSet .trunc .pwr 1 0,
      scaleSet .trunc .dnf 0 3000,
      scaleSet .trunc .dnf 254 100,
      scaleSet .trunc .dnf 128 1425,
      scaleSet .trunc .dnf 128 1675,
      scaleSet .trunc .dnf 16665 100,
      scaleSet .trunc .dnf 128 1000]
      = [55, -55, 65, 3595, 50, 603, 1, -6, 6, 0, 10, -10, 5, 100, 10, -58, 58, 3, -1, 3791, 12] := by decide

/-- K27 and K39 under FLOOR. -/
theorem test_scale_set_floor : scaleSet .floor .nr 0 33 = -7 ∧ scaleSet .floor .dnf 128 1675 = -2 := by decide

theorem test_mode_translator :
    toProtocol Config.defaults (.other 9) = (0x00#8, false) ∧ toProtocol Config.defaults .lsbDig = (0x00#8, true)
      ∧ toProtocol Config.defaults .usbDig = (0x01#8, true) ∧ toInternal Config.defaults 0x01#8 true = some .usbDig
      ∧ toInternal Config.defaults 0x00#8 false = some .lsb ∧ toInternal Config.defaults 0x03#8 true = some .cw
      ∧ toInternal Config.defaults 0x04#8 false = none
      ∧ toInternal Config.defaults (toProtocol Config.defaults .nfm).1 false = some .nfm := by decide

/-! Read-only commands (S1, Q). -/

/-- S1, Q9. -/
theorem test_rd_freq :
    replied (freqEnv 14250000) [0xFE#8, 0xFE#8, 0xA4#8, 0xE0#8, 0x03#8, 0xFD#8]
      = some [0xFE#8, 0xFE#8, 0xE0#8, 0xA4#8, 0x03#8, 0x00#8, 0x00#8, 0x25#8, 0x14#8, 0x00#8, 0xFD#8]
    ∧ replied (freqEnv 12345678901) [0xFE#8, 0xFE#8, 0xA4#8, 0xE0#8, 0x03#8, 0xFD#8]
      = some [0xFE#8, 0xFE#8, 0xE0#8, 0xA4#8, 0x03#8, 0x01#8, 0x89#8, 0x67#8, 0x45#8, 0x23#8, 0xFD#8] := by decide

/-- Q1, Q2, Q3. -/
theorem test_rd_mode :
    replied (modeEnv .usb) [0xFE#8, 0xFE#8, 0xA4#8, 0xE0#8, 0x04#8, 0xFD#8]
      = some [0xFE#8, 0xFE#8, 0xE0#8, 0xA4#8, 0x04#8, 0x01#8, 0x01#8, 0xFD#8]
    ∧ replied (modeEnv .usbDig) [0xFE#8, 0xFE#8, 0xA4#8, 0xE0#8, 0x04#8, 0xFD#8]
      = some [0xFE#8, 0xFE#8, 0xE0#8, 0xA4#8, 0x04#8, 0x01#8, 0x01#8, 0xFD#8]
    ∧ replied (modeEnv (.other 9)) [0xFE#8, 0xFE#8, 0xA4#8, 0xE0#8, 0x04#8, 0xFD#8]
      = some [0xFE#8, 0xFE#8, 0xE0#8, 0xA4#8, 0x04#8, 0x00#8, 0x01#8, 0xFD#8] := by decide

/-- Q4. -/
theorem test_sel_freq_query :
    replied (freqEnv 7074000) [0xFE#8, 0xFE#8, 0xA4#8, 0xE0#8, 0x25#8, 0x01#8, 0xFD#8]
      = some [0xFE#8, 0xFE#8, 0xE0#8, 0xA4#8, 0x25#8, 0x01#8, 0x00#8, 0x40#8, 0x07#8, 0x07#8, 0x00#8, 0xFD#8] := by decide

/-- Q5. -/
theorem test_sel_mode_query :
    replied (modeEnv .lsbDig) [0xFE#8, 0xFE#8, 0xA4#8, 0xE0#8, 0x26#8, 0x01#8, 0xFD#8]
      = some [0xFE#8, 0xFE#8, 0xE0#8, 0xA4#8, 0x26#8, 0x01#8, 0x00#8, 0x01#8, 0x01#8, 0xFD#8] := by decide

/-- Q6, Q7. -/
theorem test_mem_width :
    replied (widthEnv 31) [0xFE#8, 0xFE#8, 0xA4#8, 0xE0#8, 0x1A#8, 0x03#8, 0xFD#8]
      = some [0xFE#8, 0xFE#8, 0xE0#8, 0xA4#8, 0x1A#8, 0x03#8, 0x31#8, 0xFD#8]
    ∧ replied (widthEnv 100) [0xFE#8, 0xFE#8, 0xA4#8, 0xE0#8, 0x1A#8, 0x03#8, 0xFD#8]
      = some [0xFE#8, 0xFE#8, 0xE0#8, 0xA4#8, 0x1A#8, 0x03#8, 0x00#8, 0xFD#8] := by decide

/-- Q8. -/
theorem test_rd_trxid :
    replied Env.free [0xFE#8, 0xFE#8, 0xA4#8, 0xE0#8, 0x19#8, 0x00#8, 0xFD#8]
      = some [0xFE#8, 0xFE#8, 0xE0#8, 0xA4#8, 0x19#8, 0x00#8, 0xA4#8, 0xFD#8] := by decide

/-! State-mutating commands (S2, W). -/

/-- S2, W1, W2. -/
theorem test_set_freq :
    served (freqEnv 7074000) [0xFE#8, 0xFE#8, 0xA4#8, 0xE0#8, 0x05#8, 0x00#8, 0x00#8, 0x25#8, 0x14#8, 0x00#8, 0xFD#8]
      = some ([.qry (.freqOf .selected) (.freq 7074000), .mut (.setFreq .selected 14250000)] ++ ackE0, 0)
    ∧ served (freqEnv 14250000) [0xFE#8, 0xFE#8, 0xA4#8, 0xE0#8, 0x05#8, 0x00#8, 0x00#8, 0x25#8, 0x14#8, 0x00#8, 0xFD#8]
      = some ([.qry (.freqOf .selected) (.freq 14250000)] ++ ackE0, 0)
    ∧ served (freqEnv 14250000) [0xFE#8, 0xFE#8, 0xA4#8, 0xE0#8, 0x05#8, 0x0A#8, 0x00#8, 0x00#8, 0x00#8, 0x00#8, 0xFD#8]
      = some ([.qry (.freqOf .selected) (.freq 14250000), .mut (.setFreq .selected 10)] ++ ackE0, 0) := by decide

/-- W3, W4. -/
theorem test_set_mode :
    served (modeEnv .usb) [0xFE#8, 0xFE#8, 0xA4#8, 0xE0#8, 0x06#8, 0x01#8, 0xFD#8]
      = some ([.qry (.modeOf .selected) (.mode .usb)] ++ ackE0, 0)
    ∧ served (modeEnv .usbDig) [0xFE#8, 0xFE#8, 0xA4#8, 0xE0#8, 0x06#8, 0x01#8, 0xFD#8]
      = some ([.qry (.modeOf .selected) (.mode .usbDig), .mut (.setMode .selected .usb)] ++ ackE0, 0) := by decide

/-- W5. -/
theorem test_set_mode_fil :
    served (modeEnv .usb) [0xFE#8, 0xFE#8, 0xA4#8, 0xE0#8, 0x06#8, 0x01#8, 0x03#8, 0xFD#8]
      = some ([.qry (.modeOf .selected) (.mode .usb)] ++ ackE0, 0) := by decide

/-- W6, W7. -/
theorem test_set_vfo :
    served (vfoEnv .a) [0xFE#8, 0xFE#8, 0xA4#8, 0xE0#8, 0x07#8, 0x00#8, 0xFD#8]
      = some ([.qry .activeVfo (.vfo .a)] ++ ackE0, 0)
    ∧ served (vfoEnv .a) [0xFE#8, 0xFE#8, 0xA4#8, 0xE0#8, 0x07#8, 0x01#8, 0xFD#8]
      = some ([.qry .activeVfo (.vfo .a), .mut (.selectVfo .b)] ++ ackE0, 0) := by decide

/-- W8. -/
theorem test_sel_freq_set :
    served (freqEnv 14250000) [0xFE#8, 0xFE#8, 0xA4#8, 0xE0#8, 0x25#8, 0x00#8, 0x00#8, 0x40#8, 0x07#8, 0x07#8, 0x00#8, 0xFD#8]
      = some ([.qry (.freqOf .selected) (.freq 14250000), .mut (.setFreq .selected 7074000)] ++ ackE0, 0) := by decide

/-- W9, W10, W11. -/
theorem test_sel_mode_set :
    served (modeEnv .lsbDig) [0xFE#8, 0xFE#8, 0xA4#8, 0xE0#8, 0x26#8, 0x01#8, 0x01#8, 0x00#8, 0x01#8, 0xFD#8]
      = some ([.qry (.modeOf .unselected) (.mode .lsbDig), .mut (.setMode .unselected .usb)] ++ ackE0, 0)
    ∧ served (modeEnv .lsbDig) [0xFE#8, 0xFE#8, 0xA4#8, 0xE0#8, 0x26#8, 0x01#8, 0x00#8, 0x01#8, 0x00#8, 0xFD#8]
      = some ([.qry (.modeOf .unselected) (.mode .lsbDig)] ++ ackE0, 0)
    ∧ served (modeEnv .usb) [0xFE#8, 0xFE#8, 0xA4#8, 0xE0#8, 0x26#8, 0x00#8, 0x03#8, 0x01#8, 0x01#8, 0xFD#8]
      = some ([.qry (.modeOf .selected) (.mode .usb), .mut (.setMode .selected .cw)] ++ ackE0, 0) := by decide

/-! Level commands (T, K, P4). -/

/-- T1. -/
theorem test_lvl_af_query :
    replied (levelEnv 27) [0xFE#8, 0xFE#8, 0xA4#8, 0xE0#8, 0x14#8, 0x01#8, 0xFD#8]
      = some [0xFE#8, 0xFE#8, 0xE0#8, 0xA4#8, 0x14#8, 0x01#8, 0x01#8, 0x25#8, 0xFD#8] := by decide

/-- P4. -/
theorem test_lvl_rf_query :
    replied (levelEnv 50) [0xFE#8, 0xFE#8, 0xA4#8, 0xE0#8, 0x14#8, 0x02#8, 0xFD#8]
      = some [0xFE#8, 0xFE#8, 0xE0#8, 0xA4#8, 0x14#8, 0x02#8, 0x01#8, 0x28#8, 0xFD#8] := by decide

/-- K5, R265. -/
theorem test_lvl_sql_query :
    replied (levelEnv 40) [0xFE#8, 0xFE#8, 0xA4#8, 0xE0#8, 0x14#8, 0x03#8, 0xFD#8]
      = some [0xFE#8, 0xFE#8, 0xE0#8, 0xA4#8, 0x14#8, 0x03#8, 0x01#8, 0x02#8, 0xFD#8] := by decide

/-- K7, R267. -/
theorem test_lvl_nr_query :
    replied (levelEnv 33) [0xFE#8, 0xFE#8, 0xA4#8, 0xE0#8, 0x14#8, 0x06#8, 0xFD#8]
      = some [0xFE#8, 0xFE#8, 0xE0#8, 0xA4#8, 0x14#8, 0x06#8, 0x01#8, 0x40#8, 0xFD#8] := by decide

/-- K8, R269. -/
theorem test_lvl_nb_query :
    replied (levelEnv 5) [0xFE#8, 0xFE#8, 0xA4#8, 0xE0#8, 0x14#8, 0x12#8, 0xFD#8]
      = some [0xFE#8, 0xFE#8, 0xE0#8, 0xA4#8, 0x14#8, 0x12#8, 0x00#8, 0x13#8, 0xFD#8] := by decide

/-- K9, R271. -/
theorem test_lvl_pwr_query :
    replied (levelEnv 10) [0xFE#8, 0xFE#8, 0xA4#8, 0xE0#8, 0x14#8, 0x0A#8, 0xFD#8]
      = some [0xFE#8, 0xFE#8, 0xE0#8, 0xA4#8, 0x14#8, 0x0A#8, 0x00#8, 0x26#8, 0xFD#8] := by decide

/-- T8. -/
theorem test_lvl_dnf_query :
    replied (levelEnv 390) [0xFE#8, 0xFE#8, 0xA4#8, 0xE0#8, 0x14#8, 0x0D#8, 0xFD#8]
      = some [0xFE#8, 0xFE#8, 0xE0#8, 0xA4#8, 0x14#8, 0x0D#8, 0x00#8, 0x26#8, 0xFD#8] := by decide

/-- T2. -/
theorem test_lvl_af_set :
    served (levelEnv 27) [0xFE#8, 0xFE#8, 0xA4#8, 0xE0#8, 0x14#8, 0x01#8, 0x03#8, 0x00#8, 0xFD#8]
      = some ([.qry (.level .af) (.level 27), .ctl (.applyDelta .af 38)] ++ ackE0, 0) := by decide

/-- T3. -/
theorem test_lvl_rf_set :
    served (levelEnv 50) [0xFE#8, 0xFE#8, 0xA4#8, 0xE0#8, 0x14#8, 0x02#8, 0x0F#8, 0xFF#8, 0xFD#8]
      = some ([.qry (.level .rf) (.level 50), .ctl (.applyDelta .rf 603)] ++ ackE0, 0) := by decide

/-- T7. -/
theorem test_lvl_sql_set :
    served (levelEnv 51) [0xFE#8, 0xFE#8, 0xA4#8, 0xE0#8, 0x14#8, 0x03#8, 0x01#8, 0x28#8, 0xFD#8]
      = some ([.qry (.level .sql) (.level 51), .ctl (.applyDelta .sql 0)] ++ ackE0, 0) := by decide

/-- T4. -/
theorem test_lvl_nr_set :
    served (levelEnv 30) [0xFE#8, 0xFE#8, 0xA4#8, 0xE0#8, 0x14#8, 0x06#8, 0x00#8, 0x00#8, 0xFD#8]
      = some ([.qry (.level .nr) (.level 30), .ctl (.applyDelta .nr (-6))] ++ ackE0, 0) := by decide

/-- T5. -/
theorem test_lvl_nb_set :
    served (levelEnv 0) [0xFE#8, 0xFE#8, 0xA4#8, 0xE0#8, 0x14#8, 0x12#8, 0x01#8, 0x28#8, 0xFD#8]
      = some ([.qry (.level .nb) (.level 0), .ctl (.applyDelta .nb 10)] ++ ackE0, 0) := by decide

/-- T6. -/
theorem test_lvl_pwr_set :
    served (levelEnv 50) [0xFE#8, 0xFE#8, 0xA4#8, 0xE0#8, 0x14#8, 0x0A#8, 0x01#8, 0x28#8, 0xFD#8]
      = some ([.qry (.level .pwr) (.level 50), .ctl (.applyDelta .pwr 10)] ++ ackE0, 0) := by decide

/-- S7. -/
theorem test_lvl_dnf_set :
    served (levelEnv 1000) [0xFE#8, 0xFE#8, 0xA4#8, 0xE0#8, 0x14#8, 0x0D#8, 0x01#8, 0x28#8, 0xFD#8]
      = some ([.qry (.level .dnf) (.level 1000), .ctl (.applyDelta .dnf 12)] ++ ackE0, 0) := by decide

/-- X1, X2, X3: the fault keeps the buffer and the counter, and the trace ends with the query. -/
theorem test_level_faults :
    (match step (loaded Config.defaults (levelEnv 56) [0xFE#8, 0xFE#8, 0xA4#8, 0xE0#8, 0x14#8, 0x01#8, 0xFD#8]) with
      | .next t => decide (t.phase = .faulted .af 56) && decide (t.len = 7) && decide (t.buf.read 5 = some 0x01#8)
          && decide (t.trace.getLast? = some (.qry (.level .af) (.level 56)))
      | _ => false) = true
      ∧ (match step (loaded Config.defaults (levelEnv 101) [0xFE#8, 0xFE#8, 0xA4#8, 0xE0#8, 0x14#8, 0x0A#8, 0x01#8, 0x28#8, 0xFD#8]) with
        | .next t => decide (t.phase = .faulted .pwr 101)
        | _ => false) = true
      ∧ (match step (loaded Config.defaults (levelEnv 99) [0xFE#8, 0xFE#8, 0xA4#8, 0xE0#8, 0x14#8, 0x0D#8, 0xFD#8]) with
        | .next t => decide (t.phase = .faulted .dnf 99)
        | _ => false) = true := by decide

/-! Toggle commands (T). -/

/-- T9: a raw END in the answer. -/
theorem test_func_preamp_query :
    replied (toggleEnv 0xFD#8) [0xFE#8, 0xFE#8, 0xA4#8, 0xE0#8, 0x16#8, 0x02#8, 0xFD#8]
      = some [0xFE#8, 0xFE#8, 0xE0#8, 0xA4#8, 0x16#8, 0x02#8, 0xFD#8, 0xFD#8] := by decide

/-- R278. -/
theorem test_func_agc_query :
    replied (toggleEnv 0x03#8) [0xFE#8, 0xFE#8, 0xA4#8, 0xE0#8, 0x16#8, 0x12#8, 0xFD#8]
      = some [0xFE#8, 0xFE#8, 0xE0#8, 0xA4#8, 0x16#8, 0x12#8, 0x03#8, 0xFD#8] := by decide

/-- R280. -/
theorem test_func_nb_query :
    replied (toggleEnv 0x01#8) [0xFE#8, 0xFE#8, 0xA4#8, 0xE0#8, 0x16#8, 0x22#8, 0xFD#8]
      = some [0xFE#8, 0xFE#8, 0xE0#8, 0xA4#8, 0x16#8, 0x22#8, 0x01#8, 0xFD#8] := by decide

/-- R282. -/
theorem test_func_nr_query :
    replied (toggleEnv 0x01#8) [0xFE#8, 0xFE#8, 0xA4#8, 0xE0#8, 0x16#8, 0x40#8, 0xFD#8]
      = some [0xFE#8, 0xFE#8, 0xE0#8, 0xA4#8, 0x16#8, 0x40#8, 0x01#8, 0xFD#8] := by decide

/-- T12. -/
theorem test_func_dnf_query :
    replied (toggleEnv 0x00#8) [0xFE#8, 0xFE#8, 0xA4#8, 0xE0#8, 0x16#8, 0x48#8, 0xFD#8]
      = some [0xFE#8, 0xFE#8, 0xE0#8, 0xA4#8, 0x16#8, 0x48#8, 0x00#8, 0xFD#8] := by decide

/-- P4. -/
theorem test_ptt_query :
    replied (toggleEnv 0x01#8) [0xFE#8, 0xFE#8, 0xA4#8, 0xE0#8, 0x1C#8, 0x00#8, 0xFD#8]
      = some [0xFE#8, 0xFE#8, 0xE0#8, 0xA4#8, 0x1C#8, 0x00#8, 0x01#8, 0xFD#8] := by decide

/-- T14. -/
theorem test_atu_query :
    replied (toggleEnv 0x01#8) [0xFE#8, 0xFE#8, 0xA4#8, 0xE0#8, 0x1C#8, 0x01#8, 0xFD#8]
      = some [0xFE#8, 0xFE#8, 0xE0#8, 0xA4#8, 0x1C#8, 0x01#8, 0x01#8, 0xFD#8] := by decide

/-- T15. -/
theorem test_att_query :
    replied (toggleEnv 0x00#8) [0xFE#8, 0xFE#8, 0xA4#8, 0xE0#8, 0x11#8, 0xFD#8]
      = some [0xFE#8, 0xFE#8, 0xE0#8, 0xA4#8, 0x11#8, 0x00#8, 0xFD#8] := by decide

/-- R292. -/
theorem test_splt_query :
    replied (toggleEnv 0x02#8) [0xFE#8, 0xFE#8, 0xA4#8, 0xE0#8, 0x0F#8, 0xFD#8]
      = some [0xFE#8, 0xFE#8, 0xE0#8, 0xA4#8, 0x0F#8, 0x02#8, 0xFD#8] := by decide

/-- T10. -/
theorem test_func_preamp_set :
    served Env.free [0xFE#8, 0xFE#8, 0xA4#8, 0xE0#8, 0x16#8, 0x02#8, 0xFE#8, 0xFD#8]
      = some ([.ctl (.setToggle .preamp 0xFE#8), .notify] ++ ackE0, 0) := by decide

/-- T11. -/
theorem test_func_agc_set :
    served Env.free [0xFE#8, 0xFE#8, 0xA4#8, 0xE0#8, 0x16#8, 0x12#8, 0x03#8, 0xFD#8]
      = some ([.ctl (.setToggle .agc 0x03#8), .notify] ++ ackE0, 0) := by decide

/-- R281. -/
theorem test_func_nb_set :
    served Env.free [0xFE#8, 0xFE#8, 0xA4#8, 0xE0#8, 0x16#8, 0x22#8, 0x01#8, 0xFD#8]
      = some ([.ctl (.setToggle .nbOn 0x01#8), .notify] ++ ackE0, 0) := by decide

/-- R283. -/
theorem test_func_nr_set :
    served Env.free [0xFE#8, 0xFE#8, 0xA4#8, 0xE0#8, 0x16#8, 0x40#8, 0x02#8, 0xFD#8]
      = some ([.ctl (.setToggle .nrOn 0x02#8), .notify] ++ ackE0, 0) := by decide

/-- R285. -/
theorem test_func_dnf_set :
    served Env.free [0xFE#8, 0xFE#8, 0xA4#8, 0xE0#8, 0x16#8, 0x48#8, 0x00#8, 0xFD#8]
      = some ([.ctl (.setToggle .dnfOn 0x00#8), .notify] ++ ackE0, 0) := by decide

/-- T13. -/
theorem test_ptt_set :
    served Env.free [0xFE#8, 0xFE#8, 0xA4#8, 0xE0#8, 0x1C#8, 0x00#8, 0x01#8, 0xFD#8]
      = some ([.ctl (.setToggle .ptt 0x01#8), .notify] ++ ackE0, 0) := by decide

/-- R289. -/
theorem test_atu_set :
    served Env.free [0xFE#8, 0xFE#8, 0xA4#8, 0xE0#8, 0x1C#8, 0x01#8, 0x00#8, 0xFD#8]
      = some ([.ctl (.setToggle .atu 0x00#8), .notify] ++ ackE0, 0) := by decide

/-- R291. -/
theorem test_att_set :
    served Env.free [0xFE#8, 0xFE#8, 0xA4#8, 0xE0#8, 0x11#8, 0x20#8, 0xFD#8]
      = some ([.ctl (.setToggle .att 0x20#8), .notify] ++ ackE0, 0) := by decide

/-- T16. -/
theorem test_splt_set :
    served Env.free [0xFE#8, 0xFE#8, 0xA4#8, 0xE0#8, 0x0F#8, 0x01#8, 0xFD#8]
      = some ([.ctl (.setToggle .split 0x01#8), .notify] ++ ackE0, 0) := by decide

/-- T17: with a sub-command the answer repeats it. -/
theorem test_att_with_sub :
    (servedWith subConfig (toggleEnv 0x00#8) [0xFE#8, 0xFE#8, 0xA4#8, 0xE0#8, 0x11#8, 0x5A#8, 0xFD#8]).map sentBytes
      = some [0xFE#8, 0xFE#8, 0xE0#8, 0xA4#8, 0x11#8, 0x5A#8, 0x00#8, 0xFD#8] := by decide

/-! The reader and reset (F10, F6, X4, X5). -/

/-- F10: four bytes and no END. -/
theorem test_reader_accumulates :
    (match State.run 4 (started { Env.free with rx := [some 0xFE#8, some 0xFE#8, none, some 0xA4#8] }) with
      | .next t => decide (t.len = 3) && decide (t.phase = .accum) && decide (t.buf.slice 4 = [0xFE#8, 0xFE#8, 0xA4#8, 0x00#8])
      | _ => false) = true := by decide

/-- R102: the 256th byte, not END, discards; R101: the 256th byte, END, completes. -/
theorem test_reader_bound :
    (match step { started { Env.free with rx := [some 0x55#8] } with len := 255, buf := [(254, 0x55#8)] } with
      | .next t => decide (t.len = 0) && decide (t.phase = .accum) && decide (t.buf = [])
      | _ => false) = true
      ∧ (match step { started { Env.free with rx := [some 0xFD#8] } with len := 255, buf := [(254, 0x55#8)] } with
        | .next t => decide (t.len = 256) && decide (t.phase = .dispatch) && decide (t.buf.read 255 = some 0xFD#8)
        | _ => false) = true := by decide

/-- X5, X4. -/
theorem test_reset :
    State.reset.buf.wf = true ∧ State.reset.len = 0 ∧ State.reset.phase = .accum ∧ State.reset.trace = []
      ∧ State.reset.inv = true
      ∧ (State.resetWith { Config.defaults with initOk := false }).trace = [.log .initFailed] := by decide

theorem test_halted : step (State.resetWith { Config.defaults with initOk := false }) = .refused .halted := by rfl

/-! For every obligation with hypotheses, a state and operands that meet them all, at the boundaries of its clauses. -/

/-- A frame ready to be dispatched, with the default parameters. -/
def waiting (env : Env) (req : List Byte) : State := loaded Config.defaults env req

/-- The reset state with RX results given. -/
def listening (rx : List (Option Byte)) : State := started { Env.free with rx := rx }

/-- The request of S1. -/
def readFreq : List Byte := [0xFE#8, 0xFE#8, 0xA4#8, 0xE0#8, 0x03#8, 0xFD#8]

theorem test_witness_reset_clauses :
    Config.defaults.wf = true ∧ Config.defaults.initOk = true
      ∧ ({ Config.defaults with initOk := false } : Config).wf = true := by decide

theorem test_witness_halted_and_faulted :
    (State.resetWith { Config.defaults with initOk := false }).cfg.wf = true
      ∧ (State.resetWith { Config.defaults with initOk := false }).phase = .halted
      ∧ ({ State.reset with phase := .faulted .af 56 } : State).cfg.wf = true
      ∧ ({ State.reset with phase := .faulted .af 56 } : State).phase = .faulted .af 56 := by decide

theorem test_witness_ill_formed_config :
    ({ State.reset with cfg := { Config.defaults with cRdMode := 0x03#8 } } : State).cfg.wf = false := by decide

theorem test_witness_poll_without_byte :
    (listening [none]).cfg.wf = true ∧ (listening [none]).phase = .accum ∧ (listening [none]).rxNext.1 = none := by decide

/-- A byte at `len = 0`, `254` and `255`, END and not END. -/
theorem test_witness_byte_received :
    ∀ l ∈ [0, 254, 255], ∀ b ∈ [0x55#8, 0xFD#8],
      let s : State := { listening [some b] with len := l }
      s.cfg.wf = true ∧ s.phase = .accum ∧ s.buf.wf = true ∧ s.len ≤ 255 ∧ s.rxNext.1 = some b := by decide

theorem test_witness_only_end :
    (listening [some 0xFD#8]).phase = .accum
      ∧ ∃ t, step (listening [some 0xFD#8]) = .next t ∧ t.phase ≠ .accum := ⟨by decide, _, rfl, by decide⟩

set_option maxRecDepth 8000 in
/-- Frames of 6, 256 and 1 bytes. -/
theorem test_witness_complete_frame :
    ∀ bs ∈ [readFreq, List.replicate 255 0x00#8 ++ [0xFD#8], [0xFD#8]],
      let s := listening (bs.map some)
      s.cfg.wf = true ∧ s.phase = .accum ∧ s.buf = [] ∧ s.len = 0 ∧ isFrame bs = true ∧ bs.length ≤ 256
        ∧ s.env.rx = bs.map some ++ [] := by decide

set_option maxRecDepth 8000 in
/-- Streams of 0, 255, 256 and 300 bytes (S4). -/
theorem test_witness_stream_without_end :
    ∀ n ∈ [0, 255, 256, 300],
      let bs : List Byte := List.replicate n 0x11#8
      let s := listening (bs.map some)
      s.cfg.wf = true ∧ s.phase = .accum ∧ s.buf = [] ∧ s.len = 0 ∧ clearOfEnd bs = true
        ∧ s.env.rx = bs.map some ++ [] := by decide

set_option maxRecDepth 8000 in
/-- No garbage, the garbage of P2, and a full buffer of it. -/
theorem test_witness_garbage_then_end :
    ∀ g ∈ [[], [0x00#8, 0x11#8, 0x22#8], List.replicate 256 0x55#8],
      let s := listening ((g ++ [0xFD#8]).map some ++ readFreq.map some)
      s.cfg.wf = true ∧ s.phase = .accum ∧ s.buf = [] ∧ s.len = 0 ∧ clearOfEnd g = true
        ∧ framingBad (g.drop (g.length / 256 * 256) ++ [0xFD#8]) = true
        ∧ s.env.rx = (g ++ [0xFD#8]).map some ++ readFreq.map some ++ [] := by decide

theorem test_witness_step_runs :
    (waiting Env.free readFreq).cfg.wf = true ∧ (waiting Env.free readFreq).phase = .dispatch
      ∧ (waiting Env.free readFreq).request = some readFreq
      ∧ decodeFrame (waiting Env.free readFreq).cfg readFreq = .ok (.rdFreq 0xA4#8 0xE0#8) := by decide

/-- Too short (F2), a bad first and a bad second preamble (F4, F3). -/
theorem test_witness_framing_error :
    ∀ req ∈ [[0xFE#8, 0xA4#8, 0xE0#8, 0x03#8, 0xFD#8], [0x00#8, 0xFE#8, 0xA4#8, 0xE0#8, 0x03#8, 0xFD#8],
        [0xFE#8, 0x00#8, 0xA4#8, 0xE0#8, 0x03#8, 0xFD#8]],
      (waiting Env.free req).cfg.wf = true ∧ (waiting Env.free req).phase = .dispatch
        ∧ (waiting Env.free req).request = some req
        ∧ (req.length < 6 ∨ req.getD 0 0#8 ≠ 0xFE#8 ∨ req.getD 1 0#8 ≠ 0xFE#8) := by decide

theorem test_witness_rejected :
    (waiting Env.free [0xFE#8, 0xFE#8, 0xA4#8, 0xE0#8, 0xFF#8, 0xFD#8]).request
        = some [0xFE#8, 0xFE#8, 0xA4#8, 0xE0#8, 0xFF#8, 0xFD#8]
      ∧ (waiting Env.free [0xFE#8, 0xFE#8, 0xA4#8, 0xE0#8, 0xFF#8, 0xFD#8]).phase = .dispatch
      ∧ decodeFrame Config.defaults [0xFE#8, 0xFE#8, 0xA4#8, 0xE0#8, 0xFF#8, 0xFD#8] = .error (.nak .unknownCommand) := by
  decide

theorem test_witness_command_routing :
    Config.defaults.wf = true ∧ (∀ f ∈ Family.all, cmdCode Config.defaults f ≠ 0xFF#8)
      ∧ cmdCode Config.defaults .rdFreq = 0x03#8 := by decide

theorem test_witness_sub_routing :
    Config.defaults.wf = true ∧ Family.route Config.defaults .ctlPtt = .bySub [.toggle .ptt, .toggle .atu]
      ∧ (∀ h ∈ [Handler.toggle .ptt, .toggle .atu], h.sub Config.defaults ≠ some 0x02#8)
      ∧ (Handler.toggle .ptt).sub Config.defaults = some 0x00#8 := by decide

/-- A query, a set of the right and of a wrong length. -/
theorem test_witness_form_and_length :
    Config.defaults.wf = true
      ∧ ∀ payload ∈ [[], [0x01#8, 0x28#8], [0x01#8], [0x01#8, 0x28#8, 0x00#8]], clearOfEnd payload = true := by decide

theorem test_witness_echo :
    (waiting Env.free readFreq).phase = .dispatch ∧ (waiting Env.free readFreq).request = some readFreq
      ∧ ∃ t, step (waiting Env.free readFreq) = .next t := ⟨by decide, by decide, _, rfl⟩

theorem test_witness_encode :
    Config.defaults.wf = true ∧ Config.defaults.sendable = true
      ∧ (Instr.selModeS 0xA4#8 0xE0#8 .unselected 0x01#8 0x00#8 0xFF#8).wf = true := by decide

theorem test_witness_decode :
    isFrame readFreq = true ∧ decodeFrame Config.defaults readFreq = .ok (.rdFreq 0xA4#8 0xE0#8) := by decide

/-- R351: a run has ended while only NONE is left, and not while a byte is left, nor outside ACCUM. -/
theorem test_run_ended :
    (listening [none]).runEnded = true ∧ (listening [none, some 0x55#8]).runEnded = false
      ∧ ({ listening [none] with phase := .faulted .af 56 } : State).runEnded = false := by decide

theorem test_witness_ended_run :
    (listening [none]).runEnded = true ∧ (listening [none]).cfg.wf = true
      ∧ ({ listening [none] with phase := .faulted .af 56 } : State).isFaulted = true := by decide

/-- Operands at both ends of the byte range, END left out. -/
theorem test_witness_rows :
    Config.defaults.wf = true ∧ clearOfEnd [0x00#8, 0xFF#8, 0xFC#8, 0xFE#8, 0x01#8] = true ∧ subConfig.wf = true := by decide

/-- Even and odd digit counts, the least and the greatest that a field uses. -/
theorem test_witness_bcd_digit_counts :
    1 ≤ 1 ∧ 1 % 2 = 1 ∧ 2 % 2 = 0 ∧ [(0xFF#8 : Byte)].length = (1 + 1) / 2 ∧ [(0xFF#8 : Byte)].length = (2 + 1) / 2
      ∧ 10 % 2 = 0 ∧ [0xFF#8, 0xFF#8, 0xFF#8, 0xFF#8, (0xFF#8 : Byte)].length = (10 + 1) / 2 := by decide

theorem test_witness_vfo_translators :
    Config.defaults.vfoA ≠ Config.defaults.vfoB ∧ vfoOf Config.defaults 0x01#8 = some .b
      ∧ 0x02#8 ≠ Config.defaults.vfoA ∧ 0x02#8 ≠ Config.defaults.vfoB := by decide

/-- R204 in both directions. -/
theorem test_vfo_translator :
    vfoOf Config.defaults 0x00#8 = some .a ∧ vfoOf Config.defaults 0x01#8 = some .b ∧ vfoOf Config.defaults 0x02#8 = none
      ∧ vfoByte Config.defaults .a = 0x00#8 ∧ vfoByte Config.defaults .b = 0x01#8 := by decide

/-- S6: the digits 9999 in 4, and 9999999999 in 10. -/
theorem test_witness_bcd_round_trip :
    9999 < 10 ^ 4 ∧ 9999999999 < 10 ^ 10
      ∧ (∀ b ∈ [0x99#8, 0x00#8], hiNibble b ≤ 9 ∧ loNibble b ≤ 9) := by decide

/-- B10, B11: the greatest bytes, and digit bytes. -/
theorem test_witness_bcd_range :
    10 % 2 = 0 ∧ [0xFF#8, 0xFF#8, 0xFF#8, 0xFF#8, (0xFF#8 : Byte)].length = 10 / 2
      ∧ (∀ b ∈ [0x99#8, 0x99#8, 0x99#8, 0x99#8, 0x99#8], hiNibble b ≤ 9 ∧ loNibble b ≤ 9)
      ∧ 4 % 2 = 0 ∧ [0xFF#8, (0xFF#8 : Byte)].length = 4 / 2 := by decide

/-- Both ends of every field's range (R171); the ends of DNF are on the 50 Hz grid. -/
theorem test_witness_level_range :
    (∀ f ∈ [LevelField.af, .rf, .sql, .nr, .nb, .pwr, .dnf],
        levelInRange f (levelMin f) = true ∧ levelInRange f (levelMax f) = true)
      ∧ (100 : Int) % 50 = 0 ∧ (3000 : Int) % 50 = 0 := by decide

theorem test_witness_mode_codes :
    Config.defaults.wf = true ∧ toInternal Config.defaults 0x01#8 true = some .usbDig
      ∧ toInternal Config.defaults 0x07#8 true = some .cwr ∧ 0x04#8 ∉ modeCodes Config.defaults ∧ (∀ n ∈ [0, 9], InternalMode.cw ≠ .other n) := by decide

theorem test_witness_freq_bits : (started (freqEnv 14250000)).cfg.freqBits = 64 := by decide

/-- VFO A, VFO B and neither. -/
theorem test_witness_vfo_codes :
    (0x00#8 = State.reset.cfg.vfoA) ∧ (0x01#8 ≠ State.reset.cfg.vfoA ∧ 0x01#8 = State.reset.cfg.vfoB)
      ∧ (0x02#8 ≠ State.reset.cfg.vfoA ∧ 0x02#8 ≠ State.reset.cfg.vfoB) := by decide

/-- Both data bytes with a mode, a bad data byte, a bad mode. -/
theorem test_witness_selected_mode :
    ((0x01#8 : Byte) = (if true then 0x01#8 else 0x00#8) ∧ toInternal State.reset.cfg 0x01#8 true = some .usbDig)
      ∧ ((0x00#8 : Byte) = (if false then 0x01#8 else 0x00#8) ∧ toInternal State.reset.cfg 0x01#8 false = some .usb)
      ∧ ((0x02#8 : Byte) ≠ 0x00#8 ∧ (0x02#8 : Byte) ≠ 0x01#8) ∧ toInternal State.reset.cfg 0x04#8 false = none := by decide

/-- Level answers at the ends of the ranges and just outside them, under the default rounding. -/
theorem test_witness_level_answers :
    ∀ cur ∈ [-1, 0, 55, 56, 60, 61, 99, 100, 101, 3000, 3001],
      (started (levelEnv cur)).nextLevel = cur ∧ (started (levelEnv cur)).cfg.roundTies = .halfUp
        ∧ (started (levelEnv cur)).cfg.divRounding = .trunc := by decide

/-- The premises of the three statements over every step, in ACCUM and in DISPATCH. -/
theorem test_witness_steps :
    (listening [some 0x55#8]).inv = true ∧ (listening [some 0x55#8]).phase = .accum
      ∧ (∃ t, step (listening [some 0x55#8]) = .next t)
      ∧ (waiting (freqEnv 14250000) readFreq).inv = true ∧ (waiting (freqEnv 14250000) readFreq).phase = .dispatch
      ∧ ∃ t, step (waiting (freqEnv 14250000) readFreq) = .next t :=
  ⟨by decide, by decide, ⟨_, rfl⟩, by decide, by decide, _, rfl⟩

/-- A fault and a refusal from states that meet the invariant, and the step into FAULTED (X1). -/
theorem test_witness_faults :
    (∃ s : State, s.inv = true ∧ ∃ r, step s = .fault r)
      ∧ (∃ s : State, s.inv = true ∧ ∃ r, step s = .refused r)
      ∧ ∃ s t : State, s.inv = true ∧ step s = .next t ∧ t.phase = .faulted .af 56 :=
  ⟨⟨{ waiting Env.free [0xFE#8, 0xFE#8, 0xA4#8, 0xE0#8, 0x14#8, 0x01#8, 0xFD#8] with phase := .faulted .af 56 },
      by decide, _, rfl⟩,
    ⟨State.resetWith { Config.defaults with initOk := false }, by decide, _, rfl⟩,
    ⟨waiting (levelEnv 56) [0xFE#8, 0xFE#8, 0xA4#8, 0xE0#8, 0x14#8, 0x01#8, 0xFD#8], _, by decide, rfl, rfl⟩⟩

theorem test_witness_read_only :
    Instr.rdTrxid 0xA4#8 0xE0#8 ∈ [Instr.rdFreq 0xA4#8 0xE0#8, .rdMode 0xA4#8 0xE0#8, .selFreqQ 0xA4#8 0xE0#8 .selected,
      .selModeQ 0xA4#8 0xE0#8 .selected, .memWidthQ 0xA4#8 0xE0#8, .rdTrxid 0xA4#8 0xE0#8] := by decide

/-- A mutation and a control call. -/
theorem test_witness_side_effects :
    (∃ t es, exec (.setFreq 0xA4#8 0xE0#8 0x00#8 0x00#8 0x25#8 0x14#8 0x00#8) (started (freqEnv 7074000)) = .next t
        ∧ t.trace = (started (freqEnv 7074000)).trace ++ es ∧ submittedIn es ≠ [])
      ∧ ∃ t es, exec (.pttS 0xA4#8 0xE0#8 0x01#8) (started Env.free) = .next t
        ∧ t.trace = (started Env.free).trace ++ es ∧ calledIn es ≠ [] :=
  ⟨⟨_, _, rfl, (List.nil_append _).symm, by decide⟩, ⟨_, _, rfl, (List.nil_append _).symm, by decide⟩⟩

end Sys2Proof.Tests
end

/-! PROOF. The scope of the model (spec/00_scope.md): configurations that are not well formed are refused (R7), and every
step keeps the invariant `State.inv` (R22, R23, R56, R103, R104, R306). The layer first: the invariant part by part, what a
write does to the listed cells, and the step as its phase's step; then one lemma per transition. -/

namespace Sys2Proof.Machine

/-! The step and its parameters (R7). -/

theorem step_of_wf {s : State} (h : s.cfg.wf = true) : step s = phaseStep s := if_pos h

theorem step_of_illFormed {s : State} (h : s.cfg.wf = false) : step s = .refused .illFormedConfig := by
  simp [step, h]

theorem phaseStep_accum {s : State} (h : s.phase = .accum) : phaseStep s = readerStep s := by
  simp [phaseStep, h]

theorem phaseStep_dispatch {s : State} (h : s.phase = .dispatch) : phaseStep s = dispatchStep s := by
  simp [phaseStep, h]

/-- Only ACCUM and DISPATCH have a next state (R108, R35). -/
theorem phaseStep_next_phase {s t : State} (h : phaseStep s = .next t) : s.phase = .accum ∨ s.phase = .dispatch := by
  cases hp : s.phase with
  | accum => exact .inl rfl
  | dispatch => exact .inr rfl
  | halted => simp [phaseStep, hp] at h
  | faulted f v => simp [phaseStep, hp] at h

/-! The listed cells of the buffer. -/

/-- A write lists no cell but the one it writes. -/
theorem Memory.mem_put {m : Memory} {a : Nat} {b : Byte} {c : Host.Cell} (h : c ∈ m.put a b) : c = (a, b) ∨ c ∈ m := by
  have mem_cons {rest : Memory} (k : c ∈ Memory.cons a b rest) : c = (a, b) ∨ c ∈ rest := by
    unfold Memory.cons at k
    split at k
    · exact .inr k
    · exact List.mem_cons.1 k
  induction m with
  | nil => exact mem_cons h
  | cons d rest ih =>
    unfold Memory.put at h
    split at h
    · exact mem_cons h
    · split at h
      · exact (mem_cons h).imp_right (List.mem_cons_of_mem d)
      · rcases List.mem_cons.1 h with rfl | h
        · exact .inr List.mem_cons_self
        · exact (ih h).imp_right (List.mem_cons_of_mem d)

/-- Writing the byte at `n` keeps the rest of the buffer above it zero (R56). -/
theorem Memory.put_below {m : Memory} {n : Nat} {b : Byte} (h : ∀ c ∈ m, c.1 < n) : ∀ c ∈ m.put n b, c.1 < n + 1 := by
  intro c hc
  rcases Memory.mem_put hc with rfl | hc
  · exact Nat.lt_succ_self n
  · exact Nat.lt_succ_of_lt (h c hc)

/-! The invariant, part by part. -/

theorem State.inv_iff {s : State} : s.inv = true ↔
    s.cfg.wf = true ∧ s.buf.wf = true ∧ (∀ c ∈ s.buf, c.1 < s.len) ∧ s.phaseInv = true := by
  simp only [State.inv, Bool.and_eq_true, List.all_eq_true, decide_eq_true_eq, and_assoc]

theorem State.phaseInv_accum {s : State} (h : s.phase = .accum) :
    s.phaseInv = true ↔ s.len < maxFrame ∧ clearOfEnd (s.buf.slice s.len) = true := by
  simp [State.phaseInv, h]

theorem State.phaseInv_dispatch {s : State} (h : s.phase = .dispatch) :
    s.phaseInv = true ↔ s.len ≤ maxFrame ∧ isFrame (s.buf.slice s.len) = true := by
  simp [State.phaseInv, h]

theorem State.phaseInv_faulted {s : State} {f : LevelField} {v : Int} (h : s.phase = .faulted f v) :
    s.phaseInv = true ↔
      (s.len ≤ maxFrame ∧ isFrame (s.buf.slice s.len) = true) ∧ levelInRange f v = false := by
  simp [State.phaseInv, h]

/-- The invariant reads neither the trace nor the inputs. -/
theorem State.inv_congr {s u : State} (hc : u.cfg = s.cfg) (hp : u.phase = s.phase) (hb : u.buf = s.buf)
    (hl : u.len = s.len) : u.inv = s.inv := by
  simp [State.inv, State.phaseInv, hc, hp, hb, hl]

/-- A frame boundary meets the invariant: nothing in the buffer, `len = 0`, ACCUM (R104, R132). -/
theorem State.inv_of_boundary {s : State} (hc : s.cfg.wf = true) (hp : s.phase = .accum) (hb : s.buf = [])
    (hl : s.len = 0) : s.inv = true := by
  refine State.inv_iff.2 ⟨hc, by rw [hb]; rfl, by simp [hb], (State.phaseInv_accum hp).2 ?_⟩
  rw [hl]
  exact ⟨by decide, rfl⟩

/-! The reader (R100 to R103). -/

/-- Every outcome of a byte that arrives keeps the invariant: END turns the accumulation into one complete frame, a full
buffer is discarded, any other byte extends an accumulation that holds no END. -/
theorem State.receive_keeps_inv {s t : State} {b : Byte} (hs : s.inv = true) (hp : s.phase = .accum)
    (h : s.receive b = .next t) : t.inv = true := by
  obtain ⟨hc, hw, hz, hph⟩ := State.inv_iff.1 hs
  obtain ⟨hl, hclear⟩ := (State.phaseInv_accum hp).1 hph
  have hw' : (s.buf.put s.len b).wf = true := Memory.put_wfFrom (Nat.zero_le _) hl hw
  have hslice : (s.buf.put s.len b).slice (s.len + 1) = s.buf.slice s.len ++ [b] := Memory.slice_put_succ hw
  rw [State.receive_eq hl] at h
  cases h
  split
  · next hend =>
    refine State.inv_iff.2 ⟨hc, hw', Memory.put_below hz, (State.phaseInv_dispatch rfl).2 ⟨hl, ?_⟩⟩
    exact isFrame_iff.2 ⟨_, by rw [hslice, hend], hclear⟩
  · next hend =>
    split
    · exact State.inv_of_boundary hc hp rfl rfl
    · next hroom =>
      refine State.inv_iff.2 ⟨hc, hw', Memory.put_below hz, (State.phaseInv_accum ?_).2 ⟨?_, ?_⟩⟩
      · exact hp
      · exact Nat.lt_of_le_of_ne hl hroom
      · rw [hslice]
        simp [hclear, hend]

theorem readerStep_keeps_inv {s t : State} (hs : s.inv = true) (hp : s.phase = .accum)
    (h : readerStep s = .next t) : t.inv = true := by
  have hpolled : s.rxNext.2.inv = true := (State.inv_congr rfl rfl rfl rfl).trans hs
  unfold readerStep at h
  dsimp only at h
  split at h
  · cases h; exact hpolled
  · exact State.receive_keeps_inv hpolled hp h

/-! The dispatcher (R120, R121, R132, R306). -/

/-- A reply ends at a frame boundary, or in FAULTED with the request kept; so it keeps the invariant if its fault reports a
value outside the field's range. -/
theorem State.settle_keeps_inv {s : State} (hs : s.inv = true) (hp : s.phase = .dispatch) (src : Byte)
    (head : List Byte) {r : Reply} (hr : ∀ f v, r = .fault f v → levelInRange f v = false) :
    (s.settle src head r).inv = true := by
  obtain ⟨hc, hw, hz, hph⟩ := State.inv_iff.1 hs
  cases r with
  | ack => exact State.inv_of_boundary hc rfl rfl rfl
  | nak r => exact State.inv_of_boundary hc rfl rfl rfl
  | answer payload => exact State.inv_of_boundary hc rfl rfl rfl
  | fault f v =>
    refine State.inv_iff.2 ⟨hc, hw, hz, (State.phaseInv_faulted rfl).2 ⟨?_, hr f v rfl⟩⟩
    exact (State.phaseInv_dispatch hp).1 hph

theorem exec_keeps_inv {s t : State} (i : Instr) (hs : s.inv = true) (hp : s.phase = .dispatch)
    (h : exec i s = .next t) : t.inv = true := by
  obtain ⟨r, u, hexec, hu, -, -, hfault⟩ := exec_cases i s
  rw [hexec] at h
  cases h
  have hui : u.inv = true := (State.inv_congr hu.cfg hu.phase hu.buf hu.len).trans hs
  exact State.settle_keeps_inv hui (hu.phase.trans hp) _ _ fun f v e => (hfault f v e).2.2

theorem dispatchFrame_keeps_inv {s t : State} (req : List Byte) (hs : s.inv = true) (hp : s.phase = .dispatch)
    (h : dispatchFrame req s = .next t) : t.inv = true := by
  have hc : s.cfg.wf = true := (State.inv_iff.1 hs).1
  have hechoed : (s.transmit req).inv = true := (State.inv_congr rfl rfl rfl rfl).trans hs
  unfold dispatchFrame at h
  split at h
  · cases h; exact State.inv_of_boundary hc rfl rfl rfl
  · cases h; exact State.inv_of_boundary hc rfl rfl rfl
  · exact exec_keeps_inv _ hechoed hp h

theorem dispatchStep_keeps_inv {s t : State} (hs : s.inv = true) (hp : s.phase = .dispatch)
    (h : dispatchStep s = .next t) : t.inv = true := by
  unfold dispatchStep at h
  split at h
  · cases h
  · exact dispatchFrame_keeps_inv _ hs hp h

/-! The obligations. -/

/-- Settles O42: the step is its phase's step, and the reader and the dispatcher each keep the invariant. -/
theorem stepKeepsTheInvariant : Obligations.StepKeepsTheInvariant := by
  intro s t hs h
  rw [step_of_wf (State.inv_iff.1 hs).1] at h
  rcases phaseStep_next_phase h with hp | hp
  · rw [phaseStep_accum hp] at h
    exact readerStep_keeps_inv hs hp h
  · rw [phaseStep_dispatch hp] at h
    exact dispatchStep_keeps_inv hs hp h

/-- Settles O4: `Config.wf_iff` gives R7's parts; the mode code 0x00 of LSB is fixed, so it is always in the table (R6). -/
theorem illFormedConfigurationsAreRefused : Obligations.IllFormedConfigurationsAreRefused := by
  refine ⟨fun cfg => ?_, fun s h => step_of_illFormed h⟩
  have hlsb : 0x00#8 ∈ modeCodes cfg := List.mem_cons_self
  have hreserved : ∀ b : Byte, b ∉ [0xFE#8, 0xFD#8, 0xFB#8, 0xFF#8]
      ↔ b ≠ preByte ∧ b ≠ endByte ∧ b ≠ ackCode ∧ b ≠ 0xFF#8 := by
    simp [preByte, endByte, ackCode]
  simp only [hreserved, hlsb, true_and]
  exact Config.wf_iff

end Sys2Proof.Machine

/-! PROOF. The state (spec/10_state.md): what reset leaves (R36), and what no step does: change a parameter (R27) or take an
event back (R39, R54). The last two have one reason, `Extends`, which every operation that a step is made of satisfies. -/

namespace Sys2Proof.Machine

/-! Extension: the relation between a state and every state a step makes of it. -/

/-- `t` has the parameters of `s`, and its trace goes on from that of `s` (R27, R39). -/
structure Extends (s t : State) : Prop where
  cfg : t.cfg = s.cfg
  trace : s.trace <+: t.trace

theorem Extends.trans {s t u : State} (h : Extends s t) (k : Extends t u) : Extends s u :=
  ⟨k.cfg.trans h.cfg, h.trace.trans k.trace⟩

/-- An update that leaves the parameters and the trace alone. -/
theorem Extends.of_eq {s t : State} (hc : t.cfg = s.cfg) (ht : t.trace = s.trace) : Extends s t :=
  ⟨hc, by rw [ht]⟩

theorem Extends.of_append {s t : State} {es : List Event} (hc : t.cfg = s.cfg) (ht : t.trace = s.trace ++ es) :
    Extends s t :=
  ⟨hc, ht ▸ List.prefix_append s.trace es⟩

theorem Extends.of_handled {s t : State} (h : Handled s t) : Extends s t := by
  obtain ⟨es, ht, -⟩ := h.trace
  exact .of_append h.cfg ht

theorem State.transmit_extends (s : State) (bs : List Byte) : Extends s (s.transmit bs) := .of_append rfl rfl

theorem State.after_extends (s : State) (e : Env) (es : List Event) (r : List Byte) : Extends s (s.after e es r) :=
  .of_append rfl (List.append_assoc s.trace es (r.map Event.tx))

/-! The reader (R100 to R102). -/

/-- The reader stores a byte only at an index that exists (R22). -/
theorem State.len_lt_of_receive {s t : State} {b : Byte} (h : s.receive b = .next t) : s.len < maxFrame := by
  by_contra hl
  simp [State.receive, Memory.write, hl] at h

theorem State.receive_extends {s t : State} {b : Byte} (h : s.receive b = .next t) : Extends s t := by
  rw [State.receive_eq (State.len_lt_of_receive h)] at h
  cases h
  split
  · exact .of_append rfl rfl
  · split <;> exact .of_append rfl rfl

theorem readerStep_extends {s t : State} (h : readerStep s = .next t) : Extends s t := by
  have hpolled : Extends s s.rxNext.2 := .of_eq rfl rfl
  unfold readerStep at h
  dsimp only at h
  split at h
  · cases h; exact hpolled
  · exact hpolled.trans (State.receive_extends h)

/-! The dispatcher (R120, R121, R130 to R135, R306). -/

/-- Every reply appends what it sends and logs; a fault appends nothing. -/
theorem State.settle_extends (s : State) (src : Byte) (head : List Byte) (r : Reply) :
    Extends s (s.settle src head r) := by
  cases r with
  | ack => rw [State.settle, State.acknowledge_eq]; exact s.after_extends _ _ _
  | nak r => rw [State.settle, State.negativeAck_eq]; exact s.after_extends _ _ _
  | answer payload => rw [State.settle, State.answerWith_eq]; exact s.after_extends _ _ _
  | fault f v => exact .of_eq rfl rfl

theorem exec_extends {s t : State} (i : Instr) (h : exec i s = .next t) : Extends s t := by
  obtain ⟨r, u, hexec, hu, -⟩ := exec_cases i s
  rw [hexec] at h
  cases h
  exact (Extends.of_handled hu).trans (u.settle_extends _ _ r)

theorem dispatchFrame_extends {s t : State} (req : List Byte) (h : dispatchFrame req s = .next t) : Extends s t := by
  unfold dispatchFrame at h
  split at h
  · cases h; exact .of_eq rfl rfl
  · next r _ =>
    cases h
    exact (s.transmit_extends req).trans ((s.transmit req).settle_extends _ [] (.nak r))
  · exact (s.transmit_extends req).trans (exec_extends _ h)

theorem dispatchStep_extends {s t : State} (h : dispatchStep s = .next t) : Extends s t := by
  unfold dispatchStep at h
  split at h
  · cases h
  · exact dispatchFrame_extends _ h

/-! The whole step. -/

/-- A step that answers a next state is its phase's step (R7). -/
theorem phaseStep_of_step {s t : State} (h : step s = .next t) : phaseStep s = .next t := by
  cases hwf : s.cfg.wf with
  | true => rwa [step_of_wf hwf] at h
  | false => rw [step_of_illFormed hwf] at h; cases h

theorem step_extends {s t : State} (h : step s = .next t) : Extends s t := by
  have hstep := phaseStep_of_step h
  rcases phaseStep_next_phase hstep with hp | hp
  · rw [phaseStep_accum hp] at hstep
    exact readerStep_extends hstep
  · rw [phaseStep_dispatch hp] at hstep
    exact dispatchStep_extends hstep

/-! Reset (R36, R340), for both values of INIT_OK. -/

theorem Memory.read_nil {i : Nat} (h : i < maxFrame) : Memory.read [] i = some 0#8 := if_pos h

theorem State.resetWith_phase_of_initOk {cfg : Config} (h : cfg.initOk = true) :
    (State.resetWith cfg).phase = .accum := if_pos h

theorem State.resetWith_trace_of_initOk {cfg : Config} (h : cfg.initOk = true) :
    (State.resetWith cfg).trace = [] := if_pos h

theorem State.resetWith_phase_of_initFailed {cfg : Config} (h : cfg.initOk = false) :
    (State.resetWith cfg).phase = .halted := by simp [State.resetWith, h]

theorem State.resetWith_trace_of_initFailed {cfg : Config} (h : cfg.initOk = false) :
    (State.resetWith cfg).trace = [.log .initFailed] := by simp [State.resetWith, h]

theorem State.phaseInv_halted {s : State} (h : s.phase = .halted) : s.phaseInv = true ↔ s.len = 0 := by
  simp [State.phaseInv, h]

/-- Reset is a frame boundary where the start succeeds, and HALTED with nothing in the buffer where it fails. -/
theorem State.resetWith_inv {cfg : Config} (h : cfg.wf = true) : (State.resetWith cfg).inv = true := by
  cases hinit : cfg.initOk with
  | true => exact State.inv_of_boundary h (State.resetWith_phase_of_initOk hinit) rfl rfl
  | false =>
    have hhalted : (State.resetWith cfg).phaseInv = true :=
      (State.phaseInv_halted (State.resetWith_phase_of_initFailed hinit)).2 rfl
    exact State.inv_iff.2 ⟨h, rfl, fun _ hc => absurd hc List.not_mem_nil, hhalted⟩

theorem Config.defaults_wf : Config.defaults.wf = true := by decide

/-! The obligations. -/

/-- Settles O43: a next state extends the state before it. -/
theorem stepKeepsTheParameters : Obligations.StepKeepsTheParameters :=
  fun _ _ h => (step_extends h).cfg

/-- Settles O44: a next state extends the state before it. -/
theorem traceIsOnlyExtended : Obligations.TraceIsOnlyExtended := by
  intro s t h
  obtain ⟨es, hes⟩ := (step_extends h).trace
  exact ⟨es, hes.symm⟩

/-- Settles O1, clause by clause from the equations of reset. -/
theorem resetLeavesTheSpecValues : Obligations.ResetLeavesTheSpecValues := fun _ =>
  ⟨fun _ hi => Memory.read_nil hi, rfl,
    fun h => ⟨State.resetWith_phase_of_initOk h, State.resetWith_trace_of_initOk h⟩,
    fun h => ⟨State.resetWith_phase_of_initFailed h, State.resetWith_trace_of_initFailed h⟩⟩

/-- Settles O2: `State.resetWith_inv`, with the default parameters for the reset of the host's machine. -/
theorem resetMeetsTheInvariant : Obligations.ResetMeetsTheInvariant :=
  ⟨fun _ h => State.resetWith_inv h, Config.defaults_wf, by decide, State.resetWith_inv Config.defaults_wf⟩

end Sys2Proof.Machine

/-! PROOF. The encoding (spec/30_encoding.md): the decoder and the encoder are inverse (R80). The layer first: what a handler
reads from a payload, as one function in both directions; the decoder's form check by that function; and what a decoded frame
is made of. A round trip is then one use of each. -/

namespace Sys2Proof

open Machine

/-! Frames (R70, R72). -/

/-- Bytes put before a frame's last ones leave it a frame exactly when END is not among them. -/
theorem isFrame_append_iff {as tail : List Byte} (ht : tail ≠ []) :
    isFrame (as ++ tail) = true ↔ clearOfEnd as = true ∧ isFrame tail = true := by
  simp only [isFrame, List.getLast?_append_of_ne_nil as ht, List.dropLast_append_of_ne_nil ht, Bool.and_eq_true,
    clearOfEnd_append]
  tauto

/-! What a handler reads from a payload (R74, R80). -/

/-- A query form has the addresses and the handler it was made of, and no payload. -/
theorem Handler.queryForm_some {dst src : Byte} {h : Handler} {i : Instr} (k : h.queryForm dst src = some i) :
    i.addrs = (dst, src) ∧ i.handler = h ∧ i.payload = [] := by
  unfold Handler.queryForm at k
  split at k <;> cases k <;> exact ⟨rfl, rfl, rfl⟩

/-- A set form has the addresses, the handler and the payload it was made of, and its handler is one that has sets. -/
theorem Handler.setForm_some {dst src : Byte} {h : Handler} {p : List Byte} {i : Instr}
    (k : h.setForm dst src p = some i) :
    h.hasSet = true ∧ i.addrs = (dst, src) ∧ i.handler = h ∧ i.payload = p := by
  unfold Handler.setForm at k
  split at k <;> cases k <;> exact ⟨rfl, rfl, rfl, rfl⟩

/-- The request of a handler with this payload: the query form where the payload is empty, a set form where it is not (R74);
`decodeForm_ok_iff` ties it to the decoder. -/
def Handler.request (dst src : Byte) (h : Handler) : List Byte → Option Instr
  | [] => h.queryForm dst src
  | x :: rest => h.setForm dst src (x :: rest)

/-- Every instruction is the request of its own parts: one row of R80 for each constructor. -/
theorem Instr.request_parts (i : Instr) : i.handler.request i.addrs.1 i.addrs.2 i.payload = some i := by
  cases i <;> rfl

/-- Addresses, handler and payload determine the instruction, and it has them back. -/
theorem Handler.request_eq_some_iff {dst src : Byte} {h : Handler} {p : List Byte} {i : Instr} :
    h.request dst src p = some i ↔ i.addrs = (dst, src) ∧ i.handler = h ∧ i.payload = p := by
  constructor
  · intro k
    cases p with
    | nil => exact Handler.queryForm_some k
    | cons x rest => exact (Handler.setForm_some k).2
  · rintro ⟨ha, rfl, rfl⟩
    simpa only [ha] using i.request_parts

/-! The decoder's form check (R128), and the frames it answers an instruction for (R126, R127). -/

/-- On a payload with no END, then END, the form check answers the handler's request with that payload, and only that. -/
theorem decodeForm_ok_iff {dst src : Byte} {h : Handler} {p : List Byte} {i : Instr} (hp : clearOfEnd p = true) :
    decodeForm dst src h (p ++ [endByte]) = .ok i ↔ h.request dst src p = some i := by
  cases p with
  | nil => cases hq : h.queryForm dst src <;> simp [decodeForm, Handler.request, hq]
  | cons x rest =>
    have hx : x ≠ endByte := ((clearOfEnd_cons x rest).1 hp).1
    have hlast : (x :: (rest ++ [endByte])).dropLast = x :: rest := List.dropLast_concat (l₁ := x :: rest)
    cases hs : h.setForm dst src (x :: rest) with
    | none => cases hset : h.hasSet <;> simp [decodeForm, Handler.request, hx, hlast, hs, hset]
    | some j => simp [decodeForm, Handler.request, hx, hlast, hs, (Handler.setForm_some hs).1]

/-- A form check that answers an instruction had at least one byte to check. -/
theorem tail_ne_nil_of_decodeForm_ok {dst src : Byte} {h : Handler} {tail : List Byte} {i : Instr}
    (k : decodeForm dst src h tail = .ok i) : tail ≠ [] := by
  rintro rfl
  cases k

/-- The bytes from CMD on, where they decode: the CMD and SUB of a handler, and bytes that pass its form check. -/
theorem decodeRouted_ok {cfg : Config} {dst src x : Byte} {fam : Family} {rest : List Byte} {i : Instr}
    (k : decodeRouted cfg dst src fam x rest = .ok i) :
    ∃ h tail, cmdCode cfg fam :: x :: rest = h.head cfg ++ tail ∧ decodeForm dst src h tail = .ok i := by
  unfold decodeRouted at k
  split at k
  · next h hroute =>
    obtain ⟨rfl, hsub⟩ := route_plain_sub hroute
    exact ⟨h, x :: rest, by simp [Handler.head, hsub], k⟩
  · next hs hroute =>
    split at k
    · cases k
    · split at k
      · cases k
      · next h hfind =>
        obtain ⟨hmem, hsub⟩ := findSub_some hfind
        have hfam : h.family = fam := family_of_mem_route (cfg := cfg) (by rw [hroute]; exact hmem)
        exact ⟨h, _, by simp [Handler.head, hsub, hfam], k⟩

/-- A frame that decodes is the envelope, the CMD and SUB of a handler, and bytes that pass its form check. -/
theorem decodeFrame_ok {cfg : Config} {bs : List Byte} {i : Instr} (k : decodeFrame cfg bs = .ok i) :
    ∃ dst src h tail, bs = [preByte, preByte, dst, src] ++ h.head cfg ++ tail ∧ decodeForm dst src h tail = .ok i := by
  unfold decodeFrame at k
  split at k
  · next p0 p1 dst src cmd x rest =>
    split at k
    · next hpre =>
      obtain ⟨rfl, rfl⟩ := hpre
      split at k
      · cases k
      · next fam hfam =>
        obtain ⟨h, tail, hbytes, hform⟩ := decodeRouted_ok k
        rw [findFamily_some hfam] at hbytes
        exact ⟨dst, src, h, tail, by rw [List.append_assoc, ← hbytes]; rfl, hform⟩
    · cases k
  · cases k

/-! The round trips (R80). -/

/-- The bytes of an instruction whose payload holds no END decode to it. The addresses and the sub-codes may be END: the
decoder takes them by their place. -/
theorem decodeFrame_of_eq_encode {cfg : Config} {bs : List Byte} {i : Instr} (hc : cfg.wf = true)
    (hbs : bs = encode cfg i) (hp : clearOfEnd i.payload = true) : decodeFrame cfg bs = .ok i := by
  rw [hbs, encode, List.append_assoc, decodeFrame_head hc i.handler _ _ (List.append_ne_nil_of_right_ne_nil _ (by simp))]
  exact (decodeForm_ok_iff hp).2 i.request_parts

/-- Settles O19: the encoding is `decodeFrame_head`'s frame with a payload that well-formedness keeps clear of END. -/
theorem decodeOfEncode : Obligations.DecodeOfEncode := by
  intro cfg i hc _ hi
  rw [Instr.wf_eq, clearOfEnd_cons, clearOfEnd_cons] at hi
  obtain ⟨_, _, hp⟩ := hi
  exact decodeFrame_of_eq_encode hc rfl hp

/-- Settles O20: a decoded frame is an envelope, a handler's codes and a tail (`decodeFrame_ok`); the tail is a payload and
END, and the form check answers the one instruction with these parts. -/
theorem encodeOfDecode : Obligations.EncodeOfDecode := by
  intro cfg bs i hframe hdec
  obtain ⟨dst, src, h, tail, rfl, hform⟩ := decodeFrame_ok hdec
  obtain ⟨hfront, htail⟩ := (isFrame_append_iff (tail_ne_nil_of_decodeForm_ok hform)).1 hframe
  obtain ⟨p, rfl, hp⟩ := isFrame_iff.1 htail
  obtain ⟨haddrs, rfl, rfl⟩ := Handler.request_eq_some_iff.1 ((decodeForm_ok_iff hp).1 hform)
  refine ⟨by simp [encode, haddrs], ?_⟩
  simp only [clearOfEnd_append, clearOfEnd_cons, clearOfEnd_nil] at hfront
  obtain ⟨⟨_, _, hdst, hsrc, _⟩, _⟩ := hfront
  rw [Instr.wf_eq, haddrs, clearOfEnd_cons, clearOfEnd_cons]
  exact ⟨hdst, hsrc, hp⟩

/-- Settles O50: each row's frame is, byte for byte, the encoding of the row's instruction, and its operands are clear of
END; `h1` to `h5` say so for the operand counts of R80. -/
theorem everyRowDecodesToItsInstruction : Obligations.EveryRowDecodesToItsInstruction := by
  intro cfg dst src a b c d e hc h5
  have row {bs : List Byte} {i : Instr} (hp : clearOfEnd i.payload = true) (hbs : bs = encode cfg i) :
      decodeFrame cfg bs = .ok i := decodeFrame_of_eq_encode hc hbs hp
  have h0 : clearOfEnd [] = true := clearOfEnd_nil
  have h3 : clearOfEnd [a, b, c] = true := ((clearOfEnd_append [a, b, c] [d, e]).1 h5).1
  have h2 : clearOfEnd [a, b] = true := ((clearOfEnd_append [a, b] [c]).1 h3).1
  have h1 : clearOfEnd [a] = true := ((clearOfEnd_append [a] [b]).1 h2).1
  refine ⟨row h0 rfl, row h0 rfl, row h5 rfl, row h1 rfl, row h2 rfl, row h1 rfl, ?spltAtt⟩
  refine ⟨row h0 rfl, row h1 rfl, row h0 rfl, row h1 rfl, ?levels⟩
  refine ⟨row h0 rfl, row h2 rfl, row h0 rfl, row h2 rfl, row h0 rfl, row h2 rfl, row h0 rfl, row h2 rfl, row h0 rfl,
    row h2 rfl, row h0 rfl, row h2 rfl, row h0 rfl, row h2 rfl, ?functions⟩
  refine ⟨row h0 rfl, row h1 rfl, row h0 rfl, row h1 rfl, row h0 rfl, row h1 rfl, row h0 rfl, row h1 rfl, row h0 rfl,
    row h1 rfl, ?pttAtu⟩
  refine ⟨row h0 rfl, row h1 rfl, row h0 rfl, row h1 rfl, ?idAndWidth⟩
  refine ⟨row h0 rfl, row h0 rfl, ?selectors⟩
  exact ⟨row h0 rfl, row h5 rfl, row h0 rfl, row h3 rfl, row h0 rfl, row h5 rfl, row h0 rfl, row h3 rfl⟩

/-- Settles O21: at the default codes each sample frame is the encoding of its instruction. -/
theorem sampleFramesDecode : Obligations.SampleFramesDecode := by
  have sample {bs : List Byte} {i : Instr} (hp : clearOfEnd i.payload = true) (hbs : bs = encode Config.defaults i) :
      decodeFrame Config.defaults bs = .ok i := decodeFrame_of_eq_encode Config.defaults_wf hbs hp
  exact ⟨sample rfl rfl, sample rfl rfl, sample rfl rfl, sample rfl rfl, sample rfl rfl, sample rfl rfl, sample rfl rfl,
    sample rfl rfl, sample rfl rfl, sample rfl rfl, sample rfl rfl, sample rfl rfl, sample rfl rfl, sample rfl rfl⟩

end Sys2Proof

/-! PROOF. The frame reader (spec/40_frame_reader.md): what a poll and each kind of byte do (R100 to R102), and what streams
of bytes lead to (R103, R106). The layer first: a step of the reader as one whole next state per case, and `Accumulated`, what
bytes without END leave; a complete frame is such a stream and one END. -/

namespace Sys2Proof.Machine

/-! The phases without a step (R108, R35). -/

theorem phaseStep_halted {s : State} (h : s.phase = .halted) : phaseStep s = .refused .halted := by
  simp [phaseStep, h]

theorem phaseStep_faulted {s : State} {f : LevelField} {v : Int} (h : s.phase = .faulted f v) :
    phaseStep s = .fault (.nativeOutOfRange f v) := by
  simp [phaseStep, h]

/-! The serial source and the buffer. -/

theorem State.rxNext_snd (s : State) : s.rxNext.2 = { s with env := s.env.polled 1 } := by
  simp [State.rxNext, Env.polled]

theorem State.rxNext_fst_of_rx {s : State} {r : Option Byte} {later : List (Option Byte)} (h : s.env.rx = r :: later) :
    s.rxNext.1 = r := by
  simp [State.rxNext, h]

@[simp] theorem Env.polled_polled (e : Env) (m n : Nat) : (e.polled m).polled n = e.polled (m + n) := by
  simp [Env.polled, Nat.add_assoc]

/-- After `bs.length` polls of a source that gives `bs` first, the rest is still to come. -/
theorem Env.polled_rx {e : Env} {bs : List Byte} {rest : List (Option Byte)} (h : e.rx = bs.map some ++ rest) :
    (e.polled bs.length).rx = rest := by
  simp [Env.polled, h]

/-- Read after write, for `MemRead` (R10). -/
theorem Memory.read_put {m : Memory} {a i : Nat} {b : Byte} (hm : m.wf = true) (hi : i < maxFrame) :
    (m.put a b).read i = if i = a then some b else m.read i := by
  rw [Memory.read, Memory.read, if_pos hi, if_pos hi, Memory.byteAt_put hm]
  split <;> rfl

/-! One step of the reader (R100 to R102). -/

theorem readerStep_of_none {s : State} (h : s.rxNext.1 = none) : readerStep s = .next s.rxNext.2 := by
  simp only [readerStep, h]

theorem readerStep_of_byte {s : State} {b : Byte} (h : s.rxNext.1 = some b) : readerStep s = s.rxNext.2.receive b := by
  simp only [readerStep, h]

theorem step_of_accum {s : State} (hc : s.cfg.wf = true) (hp : s.phase = .accum) : step s = readerStep s :=
  (step_of_wf hc).trans (phaseStep_accum hp)

section
variable {s : State} {b : Byte} (hc : s.cfg.wf = true) (hp : s.phase = .accum) (hb : s.rxNext.1 = some b)
include hc hp hb

/-- The step on a byte is `State.receive_eq` after the poll. -/
theorem step_of_byte (hl : s.len < maxFrame) :
    step s = .next (
      if b = endByte then
        { s with
          buf := s.buf.put s.len b, len := s.len + 1, phase := .dispatch, trace := s.trace ++ [.rxByte b],
          env := s.env.polled 1 }
      else if s.len + 1 = maxFrame then
        { s with buf := [], len := 0, trace := s.trace ++ [.rxByte b], env := s.env.polled 1 }
      else
        { s with
          buf := s.buf.put s.len b, len := s.len + 1, trace := s.trace ++ [.rxByte b], env := s.env.polled 1 }) := by
  rw [step_of_accum hc hp, readerStep_of_byte hb, State.rxNext_snd]
  exact State.receive_eq hl

/-- END completes the frame (R101). -/
theorem step_of_end (hl : s.len < maxFrame) (hend : b = endByte) :
    step s = .next { s with
      buf := s.buf.put s.len b, len := s.len + 1, phase := .dispatch, trace := s.trace ++ [.rxByte b],
      env := s.env.polled 1 } := by
  rw [step_of_byte hc hp hb hl, if_pos hend]

/-- A 256th byte that is not END discards the accumulation (R102). -/
theorem step_of_lastByte (hl : s.len + 1 = maxFrame) (hend : b ≠ endByte) :
    step s = .next { s with buf := [], len := 0, trace := s.trace ++ [.rxByte b], env := s.env.polled 1 } := by
  rw [step_of_byte hc hp hb (Nat.lt_of_succ_le hl.le), if_neg hend, if_pos hl]

/-- Any other byte is stored and counted (R101). -/
theorem step_of_countedByte (hl : s.len + 1 < maxFrame) (hend : b ≠ endByte) :
    step s = .next { s with
      buf := s.buf.put s.len b, len := s.len + 1, trace := s.trace ++ [.rxByte b], env := s.env.polled 1 } := by
  rw [step_of_byte hc hp hb (Nat.lt_of_succ_lt hl), if_neg hend, if_neg hl.ne]

end

/-- A byte leaves the phase as it is unless it is END (R101, R102). -/
theorem State.receive_phase {s t : State} {b : Byte} (h : s.receive b = .next t) :
    t.phase = if b = endByte then .dispatch else s.phase := by
  rw [State.receive_eq (State.len_lt_of_receive h)] at h
  cases h
  split
  · rfl
  · split <;> rfl

/-! Runs. -/

theorem State.run_succ {s t : State} (n : Nat) (h : step s = .next t) : State.run (n + 1) s = State.run n t := by
  simp only [State.run, h]

/-- A run goes on from where its first part ended. -/
theorem State.run_add {s t : State} {m : Nat} (n : Nat) (h : State.run m s = .next t) :
    State.run (m + n) s = State.run n t := by
  induction m generalizing s with
  | zero => cases h; rw [Nat.zero_add]
  | succ m ih =>
    cases hstep : step s with
    | next u =>
      rw [State.run_succ m hstep] at h
      rw [Nat.succ_add, State.run_succ _ hstep, ih h]
    | fault r => simp [State.run, hstep] at h
    | refused r => simp [State.run, hstep] at h

theorem State.run_snoc {s t u : State} {n : Nat} (h : State.run n s = .next t) (hstep : step t = .next u) :
    State.run (n + 1) s = .next u := by
  rw [State.run_add 1 h, State.run_succ 0 hstep, State.run]

/-! Streams without END (R106). -/

/-- `t` is `s`, at a frame boundary, after the bytes `bs`, no END among them: whole buffers of them were discarded, and the
rest is in the buffer; `run_accumulates` ties it to the step. -/
structure Accumulated (s : State) (bs : List Byte) (t : State) : Prop where
  cfg : t.cfg = s.cfg
  phase : t.phase = .accum
  wf : t.buf.wf = true
  len : t.len = bs.length % 256
  slice : t.buf.slice t.len = bs.drop (bs.length / 256 * 256)
  trace : t.trace = s.trace ++ bs.map Event.rxByte
  env : t.env = s.env.polled bs.length

theorem Accumulated.nil {s : State} (hp : s.phase = .accum) (hb : s.buf = []) (hl : s.len = 0) : Accumulated s [] s where
  cfg := rfl
  phase := hp
  wf := by rw [hb]; rfl
  len := hl
  slice := by rw [hl]; rfl
  trace := by simp
  env := rfl

/-- One more byte: it discards the accumulation if the buffer is full with it, and is counted if not. -/
theorem Accumulated.snoc {s t : State} {bs : List Byte} {b : Byte} (h : Accumulated s bs t) (hc : s.cfg.wf = true)
    (hb : t.rxNext.1 = some b) (hend : b ≠ endByte) : ∃ u, step t = .next u ∧ Accumulated s (bs ++ [b]) u := by
  have hct : t.cfg.wf = true := by rw [h.cfg, hc]
  have hlen := h.len
  have hsucc : (bs ++ [b]).length = bs.length + 1 := List.length_append
  have htrace : t.trace ++ [.rxByte b] = s.trace ++ (bs ++ [b]).map Event.rxByte := by simp [h.trace]
  have henv : t.env.polled 1 = s.env.polled (bs ++ [b]).length := by simp [h.env]
  by_cases hfull : t.len + 1 = 256
  · have hempty : 0 = (bs ++ [b]).length % 256 := by omega
    have hnone : [] = (bs ++ [b]).drop ((bs ++ [b]).length / 256 * 256) :=
      (List.drop_eq_nil_of_le (by omega)).symm
    exact ⟨_, step_of_lastByte hct h.phase hb hfull hend, h.cfg, h.phase, rfl, hempty, hnone, htrace, henv⟩
  · have hroom : t.len + 1 < 256 := by omega
    have hw : (t.buf.put t.len b).wf = true := Memory.put_wfFrom (Nat.zero_le _) (Nat.lt_of_succ_lt hroom) h.wf
    have hcount : t.len + 1 = (bs ++ [b]).length % 256 := by omega
    have hdiscards : (bs ++ [b]).length / 256 = bs.length / 256 := by omega
    have hslice : (t.buf.put t.len b).slice (t.len + 1) = (bs ++ [b]).drop ((bs ++ [b]).length / 256 * 256) := by
      rw [Memory.slice_put_succ h.wf, h.slice, hdiscards, List.drop_append_of_le_length (Nat.div_mul_le_self _ _)]
    exact ⟨_, step_of_countedByte hct h.phase hb hroom hend, h.cfg, h.phase, hw, hcount, hslice, htrace, henv⟩

/-- R106: from a frame boundary, as many steps as there are bytes lead to `Accumulated`. -/
theorem run_accumulates {s : State} {bs : List Byte} {later : List (Option Byte)} (hc : s.cfg.wf = true)
    (hp : s.phase = .accum) (hb : s.buf = []) (hl : s.len = 0) (hclear : clearOfEnd bs = true)
    (hrx : s.env.rx = bs.map some ++ later) : ∃ t, State.run bs.length s = .next t ∧ Accumulated s bs t := by
  induction bs using List.reverseRecOn generalizing later with
  | nil => exact ⟨s, rfl, .nil hp hb hl⟩
  | append_singleton bs b ih =>
    obtain ⟨hbs, hlast⟩ := (clearOfEnd_append bs [b]).1 hclear
    have hend : b ≠ endByte := ((clearOfEnd_cons b []).1 hlast).1
    have hrx' : s.env.rx = bs.map some ++ some b :: later := by simpa using hrx
    obtain ⟨t, hrun, ht⟩ := ih hbs hrx'
    have hnext : t.rxNext.1 = some b := State.rxNext_fst_of_rx (by rw [ht.env, Env.polled_rx hrx'])
    obtain ⟨u, hstep, hu⟩ := ht.snoc hc hnext hend
    exact ⟨u, List.length_append ▸ State.run_snoc hrun hstep, hu⟩

/-- Fewer than 256 bytes are all still in the buffer. -/
theorem Accumulated.of_short {s t : State} {bs : List Byte} (h : Accumulated s bs t) (hshort : bs.length < 256) :
    t.len = bs.length ∧ t.buf.slice t.len = bs := by
  refine ⟨h.len.trans (Nat.mod_eq_of_lt hshort), h.slice.trans ?_⟩
  rw [Nat.div_eq_of_lt hshort, Nat.zero_mul, List.drop_zero]

/-! The obligations. -/

/-- Settles O3: the two phases in which `phaseStep` answers no next state. -/
theorem haltedAndFaultedHaveNoStep : Obligations.HaltedAndFaultedHaveNoStep := by
  intro s hc
  rw [step_of_wf hc]
  exact ⟨phaseStep_halted, fun _ _ => phaseStep_faulted⟩

/-- Settles O5: the reader's NONE case. -/
theorem pollWithoutByteChangesNothing : Obligations.PollWithoutByteChangesNothing := by
  intro s hc hp hnone
  rw [step_of_accum hc hp, readerStep_of_none hnone, State.rxNext_snd]

/-- Settles O6: the three equations of a step on a byte, with `Memory.read_put` for the bytes of the buffer. -/
theorem byteIsStoredCountedOrDiscarded : Obligations.ByteIsStoredCountedOrDiscarded := by
  intro s b hc hp hw hl hb
  by_cases hend : b = 0xFD#8
  · refine ⟨_, step_of_end hc hp hb (Nat.lt_succ_of_le hl) hend, rfl, rfl, rfl, ?_⟩
    rw [if_pos hend]
    exact ⟨rfl, rfl, fun _ hi => Memory.read_put hw hi⟩
  · by_cases hfull : s.len + 1 = 256
    · refine ⟨_, step_of_lastByte hc hp hb hfull hend, rfl, rfl, rfl, ?_⟩
      rw [if_neg hend, if_pos hfull]
      exact ⟨hp, rfl, fun _ hi => Memory.read_nil hi⟩
    · have hroom : s.len + 1 < 256 := by omega
      refine ⟨_, step_of_countedByte hc hp hb hroom hend, rfl, rfl, rfl, ?_⟩
      rw [if_neg hend, if_neg hfull]
      exact ⟨hp, rfl, fun _ hi => Memory.read_put hw hi⟩

/-- Settles O7: NONE leaves the phase as it is, and so does every byte but END (`State.receive_phase`). -/
theorem onlyEndStartsADispatch : Obligations.OnlyEndStartsADispatch := by
  intro s t hp h hleft
  have hstep : readerStep s = .next t := (phaseStep_accum hp).symm.trans (phaseStep_of_step h)
  cases hnext : s.rxNext.1 with
  | none =>
    rw [readerStep_of_none hnext] at hstep
    cases hstep
    exact absurd hp hleft
  | some b =>
    rw [readerStep_of_byte hnext] at hstep
    have hphase := State.receive_phase hstep
    by_cases hend : b = endByte
    · rw [if_pos hend] at hphase
      exact ⟨hphase, congrArg some hend⟩
    · rw [if_neg hend] at hphase
      exact absurd (hphase.trans hp) hleft

/-- Settles O9: `run_accumulates`, field by field. -/
theorem streamWithoutEndOnlyAccumulates : Obligations.StreamWithoutEndOnlyAccumulates := by
  intro s bs later hc hp hb hl hclear hrx
  obtain ⟨t, hrun, ht⟩ := run_accumulates hc hp hb hl hclear hrx
  exact ⟨t, hrun, ht.cfg, ht.phase, ht.len, ht.slice, ht.trace, ht.env⟩

/-- Settles O8: the frame's body accumulates, short enough to stay in the buffer whole, and END completes it. -/
theorem completeFrameReachesTheDispatcher : Obligations.CompleteFrameReachesTheDispatcher := by
  intro s bs later hc hp hb hl hframe hlength hrx
  obtain ⟨body, rfl, hclear⟩ := isFrame_iff.1 hframe
  have hshort : body.length < 256 := by simpa using hlength
  have hrx' : s.env.rx = body.map some ++ some endByte :: later := by simpa using hrx
  obtain ⟨t, hrun, ht⟩ := run_accumulates hc hp hb hl hclear hrx'
  obtain ⟨hlen, hslice⟩ := ht.of_short hshort
  have hnext : t.rxNext.1 = some endByte := State.rxNext_fst_of_rx (by rw [ht.env, Env.polled_rx hrx'])
  have hroom : t.len < maxFrame := hlen.trans_lt hshort
  have hstep := step_of_end (by rw [ht.cfg, hc]) ht.phase hnext hroom rfl
  rw [show (body ++ [endByte]).length = body.length + 1 from List.length_append]
  refine ⟨_, State.run_snoc hrun hstep, ht.cfg, rfl, congrArg (· + 1) hlen, ?_, by simp [ht.trace], by simp [ht.env]⟩
  rw [State.request_eq (Nat.succ_le_of_lt hroom)]
  exact congrArg some (by rw [Memory.slice_put_succ ht.wf, hslice])

end Sys2Proof.Machine

/-! PROOF. The dispatcher (spec/41_dispatcher.md): routing, form and length of a request (R126 to R128), and what one dispatch
sends (R121, R124, R133), which is the same for every destination (R122). The layer first: the decoder's equations, and each
outcome of a dispatch as one equation. `Instr.withDst` and `State.prefixed` carry R122: decoding commutes with a change of the
DST byte, no meaning reads it, and no meaning reads the trace, which is where the echo stands. -/

namespace Sys2Proof

open Machine

/-! Routing (R126, R127). -/

theorem findFamily_eq_none {cfg : Config} {b : Byte} (h : ∀ f, cmdCode cfg f ≠ b) : findFamily cfg b = none :=
  List.find?_eq_none.2 fun f _ => by simpa using h f

theorem findSub_eq_none {cfg : Config} {hs : List Handler} {b : Byte} (h : ∀ g ∈ hs, g.sub cfg ≠ some b) :
    findSub cfg hs b = none :=
  List.find?_eq_none.2 fun g hg => by simpa using h g hg

section
variable {cfg : Config} {dst src : Byte}

theorem decodeFrame_of_noFamily {cmd : Byte} (h : findFamily cfg cmd = none) (x : Byte) (rest : List Byte) :
    decodeFrame cfg (preByte :: preByte :: dst :: src :: cmd :: x :: rest) = .error (.nak .unknownCommand) := by
  simp [decodeFrame, h]

theorem decodeFrame_of_family {cmd : Byte} {f : Family} (h : findFamily cfg cmd = some f) (x : Byte) (rest : List Byte) :
    decodeFrame cfg (preByte :: preByte :: dst :: src :: cmd :: x :: rest) = decodeRouted cfg dst src f x rest := by
  simp [decodeFrame, h]

theorem decodeRouted_plain {f : Family} {h : Handler} (k : f.route cfg = .plain h) (x : Byte) (rest : List Byte) :
    decodeRouted cfg dst src f x rest = decodeForm dst src h (x :: rest) := by
  simp only [decodeRouted, k]

theorem decodeRouted_noSub {f : Family} {hs : List Handler} (k : f.route cfg = .bySub hs) (x : Byte) :
    decodeRouted cfg dst src f x [] = .error (.nak .unknownSub) := by
  simp only [decodeRouted, k]

theorem decodeRouted_of_findSub_none {f : Family} {hs : List Handler} {sub : Byte} (k : f.route cfg = .bySub hs)
    (h : findSub cfg hs sub = none) (x : Byte) (rest : List Byte) :
    decodeRouted cfg dst src f sub (x :: rest) = .error (.nak .unknownSub) := by
  simp only [decodeRouted, k, h]

theorem decodeRouted_of_findSub_some {f : Family} {hs : List Handler} {sub : Byte} {g : Handler}
    (k : f.route cfg = .bySub hs) (h : findSub cfg hs sub = some g) (x : Byte) (rest : List Byte) :
    decodeRouted cfg dst src f sub (x :: rest) = decodeForm dst src g (x :: rest) := by
  simp only [decodeRouted, k, h]

/-! Form and length (R74, R128). -/

/-- The payload lengths that R80 gives a handler's set forms, none where it has no set form; `Handler.setForm_isSome_iff`
ties it to the decoder. -/
def Handler.setLengths : Handler → List Nat
  | .setFreq => [5]
  | .setMode => [1, 2]
  | .setVfo => [1]
  | .toggle _ => [1]
  | .level _ => [2]
  | .selFreq _ => [5]
  | .selMode _ => [3]
  | _ => []

theorem Handler.setForm_isSome_iff {h : Handler} {p : List Byte} :
    (h.setForm dst src p).isSome = true ↔ p.length ∈ h.setLengths := by
  constructor
  · intro k
    obtain ⟨i, hi⟩ := Option.isSome_iff_exists.1 k
    unfold Handler.setForm at hi
    split at hi <;> cases hi <;> simp [Handler.setLengths]
  · intro k
    cases h <;> simp only [Handler.setLengths, List.mem_cons, List.not_mem_nil, or_false] at k
    case setFreq | selFreq =>
      match p, k with
      | [_, _, _, _, _], _ => rfl
    case setMode =>
      rcases k with k | k
      · obtain ⟨mm, rfl⟩ := List.length_eq_one_iff.1 k
        rfl
      · obtain ⟨mm, ff, rfl⟩ := List.length_eq_two.1 k
        rfl
    case setVfo =>
      obtain ⟨vv, rfl⟩ := List.length_eq_one_iff.1 k
      rfl
    case toggle t =>
      obtain ⟨bb, rfl⟩ := List.length_eq_one_iff.1 k
      cases t <;> rfl
    case level f =>
      obtain ⟨hi, lo, rfl⟩ := List.length_eq_two.1 k
      cases f <;> rfl
    case selMode =>
      obtain ⟨mm, dd, ff, rfl⟩ := List.length_eq_three.1 k
      rfl

theorem Handler.hasSet_eq_false_iff {h : Handler} : h.hasSet = false ↔ h.setLengths = [] := by
  cases h <;> simp [Handler.hasSet, Handler.setLengths]

theorem Handler.queryForm_eq_none_iff {h : Handler} :
    h.queryForm dst src = none ↔ h = .setFreq ∨ h = .setMode ∨ h = .setVfo := by
  cases h with
  | toggle t => cases t <;> simp [Handler.queryForm]
  | level f => cases f <;> simp [Handler.queryForm]
  | _ => simp [Handler.queryForm]

theorem decodeForm_query_badForm {h : Handler} (hq : h.queryForm dst src = none) :
    decodeForm dst src h [endByte] = .error (.nak .badForm) := by
  simp [decodeForm, hq]

section
variable {h : Handler} {p : List Byte} (hp : clearOfEnd p = true) (hne : p ≠ [])
include hp hne

/-- A payload byte before END makes the request a set (R74), which the handler must have. -/
theorem decodeForm_set_badForm (hset : h.hasSet = false) :
    decodeForm dst src h (p ++ [endByte]) = .error (.nak .badForm) := by
  obtain ⟨x, rest, rfl⟩ := List.exists_cons_of_ne_nil hne
  have hx : x ≠ endByte := ((clearOfEnd_cons x rest).1 hp).1
  simp [decodeForm, hx, hset]

theorem decodeForm_set_badLength (hset : h.hasSet = true) (hform : h.setForm dst src p = none) :
    decodeForm dst src h (p ++ [endByte]) = .error (.nak .badLength) := by
  obtain ⟨x, rest, rfl⟩ := List.exists_cons_of_ne_nil hne
  have hx : x ≠ endByte := ((clearOfEnd_cons x rest).1 hp).1
  have hlast : (x :: (rest ++ [endByte])).dropLast = x :: rest := List.dropLast_concat (l₁ := x :: rest)
  simp [decodeForm, hx, hset, hlast, hform]

end

/-- The form check hands on the addresses it was given. -/
theorem decodeForm_addrs {h : Handler} {tail : List Byte} {i : Instr} (k : decodeForm dst src h tail = .ok i) :
    i.addrs = (dst, src) := by
  unfold decodeForm at k
  split at k
  · cases k
  · split at k
    · split at k
      · cases k
      · next hq =>
        split at k <;> cases k
        exact (Handler.queryForm_some hq).1
    · split at k
      · split at k
        · cases k
        · next hs =>
          cases k
          exact (Handler.setForm_some hs).2.1
      · cases k

end

/-- The SRC of a decoded request is `req[3]` (R71, R125). -/
theorem src_of_decodeFrame_ok {cfg : Config} {req : List Byte} {i : Instr} (k : decodeFrame cfg req = .ok i) :
    i.addrs.2 = req.getD 3 0#8 := by
  obtain ⟨dst, src, h, tail, rfl, hform⟩ := decodeFrame_ok k
  rw [decodeForm_addrs hform]
  rfl

/-! Another destination (R122). -/

/-- The request of the same handler, SRC and payload for the destination `d`. Every instruction is the request of its parts
(`Instr.request_parts`), so the default of `getD` is never taken. -/
def Instr.withDst (d : Byte) (i : Instr) : Instr := (i.handler.request d i.addrs.2 i.payload).getD i

theorem Handler.queryForm_withDst (d₁ d₂ src : Byte) (h : Handler) :
    h.queryForm d₂ src = (h.queryForm d₁ src).map (Instr.withDst d₂) := by
  cases h with
  | toggle t => cases t <;> rfl
  | level f => cases f <;> rfl
  | _ => rfl

theorem Handler.setForm_withDst_of_some {d₁ src : Byte} {h : Handler} {p : List Byte} {i : Instr}
    (k : h.setForm d₁ src p = some i) (d₂ : Byte) : h.setForm d₂ src p = some (i.withDst d₂) := by
  unfold Handler.setForm at k
  split at k <;> cases k <;> rfl

theorem Handler.setForm_withDst (d₁ d₂ src : Byte) (h : Handler) (p : List Byte) :
    h.setForm d₂ src p = (h.setForm d₁ src p).map (Instr.withDst d₂) := by
  cases k : h.setForm d₁ src p with
  | some i => exact Handler.setForm_withDst_of_some k d₂
  | none =>
    refine Option.eq_none_iff_forall_ne_some.2 fun j hj => ?_
    rw [Handler.setForm_withDst_of_some hj d₁] at k
    cases k

/-- Form and length do not depend on DST. -/
theorem decodeForm_withDst (d₁ d₂ src : Byte) (h : Handler) (tail : List Byte) :
    decodeForm d₂ src h tail = (decodeForm d₁ src h tail).map (Instr.withDst d₂) := by
  cases tail with
  | nil => rfl
  | cons x rest =>
    simp only [decodeForm]
    by_cases hx : x = endByte
    · rw [if_pos hx, if_pos hx, Handler.queryForm_withDst d₁ d₂]
      cases h.queryForm d₁ src with
      | none => rfl
      | some i => cases rest <;> rfl
    · rw [if_neg hx, if_neg hx, Handler.setForm_withDst d₁ d₂]
      cases h.hasSet with
      | false => rfl
      | true => cases h.setForm d₁ src (x :: rest).dropLast <;> rfl

/-- Routing does not depend on DST. -/
theorem decodeRouted_withDst (cfg : Config) (d₁ d₂ src : Byte) (f : Family) (x : Byte) (rest : List Byte) :
    decodeRouted cfg d₂ src f x rest = (decodeRouted cfg d₁ src f x rest).map (Instr.withDst d₂) := by
  cases hroute : f.route cfg with
  | plain h =>
    rw [decodeRouted_plain hroute, decodeRouted_plain hroute]
    exact decodeForm_withDst d₁ d₂ src h (x :: rest)
  | bySub hs =>
    cases rest with
    | nil => rw [decodeRouted_noSub hroute, decodeRouted_noSub hroute]; rfl
    | cons y rest =>
      cases hfind : findSub cfg hs x with
      | none =>
        rw [decodeRouted_of_findSub_none hroute hfind, decodeRouted_of_findSub_none hroute hfind]
        rfl
      | some h =>
        rw [decodeRouted_of_findSub_some hroute hfind, decodeRouted_of_findSub_some hroute hfind]
        exact decodeForm_withDst d₁ d₂ src h (y :: rest)

/-- A frame that passes the framing check decodes, for another DST, to the same rejection or to the same request. -/
theorem decodeFrame_withDst (cfg : Config) (d₁ d₂ src cmd x : Byte) (rest : List Byte) :
    decodeFrame cfg (preByte :: preByte :: d₂ :: src :: cmd :: x :: rest)
      = (decodeFrame cfg (preByte :: preByte :: d₁ :: src :: cmd :: x :: rest)).map (Instr.withDst d₂) := by
  cases hfind : findFamily cfg cmd with
  | none => rw [decodeFrame_of_noFamily hfind, decodeFrame_of_noFamily hfind]; rfl
  | some f =>
    rw [decodeFrame_of_family hfind, decodeFrame_of_family hfind]
    exact decodeRouted_withDst cfg d₁ d₂ src f x rest

/-! The obligations on routing and validation. -/

/-- Settles O14: routing finds a family by its code alone (`findFamily_cmdCode`), so the code determines the family. -/
theorem commandRouting : Obligations.CommandRouting := by
  intro cfg dst src cmd x rest hc
  have find {f : Family} (h : cmdCode cfg f = cmd) : findFamily cfg cmd = some f := h ▸ findFamily_cmdCode hc f
  refine ⟨fun h => ?unknown, fun f h => ?routed, fun f g hf hg => ?unique⟩
  case unknown => exact decodeFrame_of_noFamily (findFamily_eq_none h) x rest
  case routed => exact decodeFrame_of_family (find h) x rest
  case unique => exact Option.some.inj ((find hf).symm.trans (find hg))

/-- Settles O15: the three outcomes of the sub-command table. -/
theorem subCommandRouting : Obligations.SubCommandRouting := by
  intro cfg dst src sub x rest f hs hc hroute
  refine ⟨decodeRouted_noSub hroute endByte, fun h => ?unknown, fun h hmem hsub => ?routed⟩
  case unknown => exact decodeRouted_of_findSub_none hroute (findSub_eq_none h) x rest
  case routed => exact decodeRouted_of_findSub_some hroute (findSub_sub hc hroute hmem hsub) x rest

/-- Settles O16: a handler's own CMD and SUB leave form and length to check (`decodeFrame_head`); a request that passes is
the handler's with these addresses and this payload (`Handler.request_eq_some_iff`). -/
theorem formAndLengthValidation : Obligations.FormAndLengthValidation := by
  intro cfg dst src h payload hc hp answer setLengths
  have hanswer : answer = decodeForm dst src h (payload ++ [endByte]) := by
    rw [← decodeFrame_head hc h dst src (List.append_ne_nil_of_right_ne_nil payload (by simp)), ← List.append_assoc]
    rfl
  have hlengths : setLengths = h.setLengths := by cases h <;> rfl
  have accepted {i : Instr} (k : h.request dst src payload = some i) :
      ∃ i, answer = .ok i ∧ i.addrs = (dst, src) ∧ i.handler = h ∧ i.payload = payload :=
    ⟨i, hanswer.trans ((decodeForm_ok_iff hp).2 k), Handler.request_eq_some_iff.1 k⟩
  rw [hlengths]
  split
  · next hnil =>
    subst hnil
    split
    · next hset => exact hanswer.trans (decodeForm_query_badForm (Handler.queryForm_eq_none_iff.2 hset))
    · next hquery =>
      have hform : h.queryForm dst src ≠ none := mt Handler.queryForm_eq_none_iff.1 hquery
      obtain ⟨i, hi⟩ := Option.ne_none_iff_exists'.1 hform
      exact accepted hi
  · next hne =>
    split
    · next hnone => exact hanswer.trans (decodeForm_set_badForm hp hne (Handler.hasSet_eq_false_iff.2 hnone))
    · next hsome =>
      split
      · next hlen =>
        have hform : (h.setForm dst src payload).isSome = true := Handler.setForm_isSome_iff.2 hlen
        obtain ⟨i, hi⟩ := Option.isSome_iff_exists.1 hform
        obtain ⟨x, rest, rfl⟩ := List.exists_cons_of_ne_nil hne
        exact accepted hi
      · next hlen =>
        have hset : h.hasSet = true := by simpa using mt Handler.hasSet_eq_false_iff.1 hsome
        have hform : h.setForm dst src payload = none :=
          Option.not_isSome_iff_eq_none.1 (mt Handler.setForm_isSome_iff.1 hlen)
        exact hanswer.trans (decodeForm_set_badLength hp hne hset hform)

end Sys2Proof

namespace Sys2Proof.Machine

/-- Six bytes or more, opened by two PRE bytes, are no framing error (R121). -/
theorem framingBad_envelope (dst src cmd x : Byte) (rest : List Byte) :
    framingBad (preByte :: preByte :: dst :: src :: cmd :: x :: rest) = false := by
  simp [framingBad]

/-! The outcomes of a dispatch (R120, R121, R124). -/

section
variable {s : State} {req : List Byte}

theorem dispatchFrame_framing (h : decodeFrame s.cfg req = .error .framing) : dispatchFrame req s = .next s.finish := by
  simp only [dispatchFrame, h]

theorem dispatchFrame_nak {r : NakReason} (h : decodeFrame s.cfg req = .error (.nak r)) :
    dispatchFrame req s = .next ((s.transmit req).negativeAck (req.getD 3 0#8) r) := by
  simp only [dispatchFrame, h]

theorem dispatchFrame_ok {i : Instr} (h : decodeFrame s.cfg req = .ok i) :
    dispatchFrame req s = exec i (s.transmit req) := by
  simp only [dispatchFrame, h]

theorem phaseStep_of_request (hp : s.phase = .dispatch) (hreq : s.request = some req) :
    phaseStep s = dispatchFrame req s := by
  rw [phaseStep_dispatch hp]
  simp only [dispatchStep, hreq]

theorem step_of_request (hc : s.cfg.wf = true) (hp : s.phase = .dispatch) (hreq : s.request = some req) :
    step s = dispatchFrame req s :=
  (step_of_wf hc).trans (phaseStep_of_request hp hreq)

end

theorem State.finish_eq (s : State) : s.finish = s.after s.env [] [] := by
  simp [State.finish, State.after, Memory.zeroFilled]

/-- A NAK after the echo, as one state over the state before the dispatch. -/
theorem State.echoed_negativeAck_eq (s : State) (req : List Byte) (src : Byte) (r : NakReason) :
    (s.transmit req).negativeAck src r
      = s.after s.env (req.map Event.tx ++ [.log (.nak r)]) (nakFrame s.cfg src) := by
  rw [State.negativeAck_eq]
  exact State.after_of_trace (s := s) (u := s.transmit req) rfl rfl _ _

/-! What is sent (R130 to R133). -/

/-- The response that R133 allows a frame `req`, under the parameters `cfg`: the ACK of a set, a NAK, or the data answer of a
query. -/
def IsResponse (cfg : Config) (req r : List Byte) : Prop :=
  (r = ackFrame (req.getD 3 0#8) ∧ ∃ i, decodeFrame cfg req = .ok i ∧ i.payload ≠ [])
    ∨ r = nakFrame cfg (req.getD 3 0#8)
    ∨ ∃ i payload, decodeFrame cfg req = .ok i ∧ i.payload = []
      ∧ r = answerFrame (req.getD 3 0#8) (i.handler.head cfg) payload
      ∧ answerLength cfg i.handler = some payload.length

/-- `t` is `s` with events that send nothing and then one response, at a frame boundary; or with such events alone, in
FAULTED. -/
def Responds (cfg : Config) (req : List Byte) (s t : State) : Prop :=
  ∃ es, sentBytes es = []
    ∧ ((t.phase = .accum ∧ ∃ r, t.trace = s.trace ++ es ++ r.map Event.tx ∧ IsResponse cfg req r)
      ∨ (t.isFaulted = true ∧ t.trace = s.trace ++ es))

/-- A NAK is a response to every frame, after its log event (R135). -/
theorem negativeAck_responds {s : State} {req : List Byte} (r : NakReason) :
    Responds s.cfg req s (s.negativeAck (req.getD 3 0#8) r) := by
  rw [State.negativeAck_eq]
  exact ⟨[.log (.nak r)], rfl, .inl ⟨rfl, _, rfl, .inr (.inl rfl)⟩⟩

/-- Each reply that `exec_cases` admits is a response to the frame that was decoded. -/
theorem exec_responds {s t : State} {req : List Byte} {i : Instr} (hdec : decodeFrame s.cfg req = .ok i)
    (h : exec i s = .next t) : Responds s.cfg req s t := by
  obtain ⟨r, u, hexec, hu, hack, hanswer, -⟩ := exec_cases i s
  obtain ⟨es, htrace, hsilent⟩ := hu.trace
  rw [hexec, src_of_decodeFrame_ok hdec] at h
  cases h
  cases r with
  | ack =>
    rw [State.settle, State.acknowledge_eq]
    exact ⟨es, hsilent, .inl ⟨rfl, _, by simp [htrace], .inl ⟨rfl, i, hdec, hack rfl⟩⟩⟩
  | nak r =>
    rw [State.settle, State.negativeAck_eq]
    rw [hu.cfg]
    refine ⟨es ++ [.log (.nak r)], ?_, .inl ⟨rfl, _, ?_, .inr (.inl rfl)⟩⟩
    · simpa [sentBytes, Event.sent] using hsilent
    · simp [htrace]
  | answer payload =>
    obtain ⟨hquery, hlen⟩ := hanswer payload rfl
    rw [State.settle, State.answerWith_eq]
    exact ⟨es, hsilent, .inl ⟨rfl, _, by simp [htrace], .inr (.inr ⟨i, payload, hdec, hquery, rfl, hlen⟩)⟩⟩
  | fault f v => exact ⟨es, hsilent, .inr ⟨rfl, htrace⟩⟩

/-- A frame that passes the framing check is echoed and then responded to. -/
theorem dispatchFrame_responds {s t : State} {req : List Byte} (hgood : framingBad req = false)
    (h : dispatchFrame req s = .next t) : Responds s.cfg req (s.transmit req) t := by
  cases hdec : decodeFrame s.cfg req with
  | ok i =>
    rw [dispatchFrame_ok hdec] at h
    exact exec_responds hdec h
  | error e =>
    cases e with
    | framing => simp [decodeFrame_framing.1 hdec] at hgood
    | nak r =>
      rw [dispatchFrame_nak hdec] at h
      cases h
      exact negativeAck_responds r

/-! No meaning reads the trace (R39), so none depends on the echo. -/

/-- `s` with more events before its trace. -/
def State.prefixed (tr : List Event) (s : State) : State := { s with trace := tr ++ s.trace }

/-- A state with the echo is the state with an empty trace, put behind what was recorded and the echo. -/
theorem State.transmit_eq_prefixed (s : State) (bs : List Byte) :
    s.transmit bs = State.prefixed (s.trace ++ bs.map Event.tx) { s with trace := [] } := by
  simp [State.prefixed, State.transmit, State.emit]

theorem State.emit_prefixed (s : State) (tr es : List Event) : (s.prefixed tr).emit es = (s.emit es).prefixed tr := by
  simp [State.prefixed, State.emit]

theorem State.after_prefixed (s : State) (tr es : List Event) (e : Env) (r : List Byte) :
    (s.prefixed tr).after e es r = (s.after e es r).prefixed tr := by
  simp [State.prefixed, State.after]

theorem State.settle_prefixed (s : State) (tr : List Event) (src : Byte) (head : List Byte) (r : Reply) :
    (s.prefixed tr).settle src head r = (s.settle src head r).prefixed tr := by
  cases r with
  | ack =>
    rw [State.settle, State.settle, State.acknowledge_eq, State.acknowledge_eq]
    exact s.after_prefixed tr _ _ _
  | nak r =>
    rw [State.settle, State.settle, State.negativeAck_eq, State.negativeAck_eq]
    exact s.after_prefixed tr _ _ _
  | answer payload =>
    rw [State.settle, State.settle, State.answerWith_eq, State.answerWith_eq]
    exact s.after_prefixed tr _ _ _
  | fault f v => rfl

/-- The operation gives the same value and makes the same events whatever the trace holds already. -/
def TraceBlind {α : Type} (g : State → α × State) : Prop :=
  ∀ s tr, g (s.prefixed tr) = ((g s).1, (g s).2.prefixed tr)

/-- A value that reads neither the state nor the trace, and events. -/
theorem TraceBlind.emit {α : Type} (a : α) (es : List Event) : TraceBlind fun s => (a, s.emit es) :=
  fun s tr => congrArg (Prod.mk a) (s.emit_prefixed tr es)

theorem TraceBlind.pure {α : Type} (a : α) : TraceBlind fun s => (a, s) := fun _ _ => rfl

/-- An operation, then one that may read the parameters and the first one's value. -/
theorem TraceBlind.bind {α β : Type} {g : State → α × State} {k : Config → α → State → β × State} (hg : TraceBlind g)
    (hk : ∀ c a, TraceBlind (k c a)) : TraceBlind fun s => k s.cfg (g s).1 (g s).2 := by
  intro s tr
  dsimp only
  rw [hg s tr]
  exact hk _ _ _ _

/-- An operation whose value is then read, with the parameters. -/
theorem TraceBlind.map {α β : Type} {g : State → α × State} (hg : TraceBlind g) (f : Config → α → β) :
    TraceBlind fun s => (f s.cfg (g s).1, (g s).2) :=
  hg.bind fun c a => .pure (f c a)

theorem queryFreq_traceBlind (w : VfoSel) : TraceBlind fun s => s.queryFreq w := fun s tr => by
  simp [State.queryFreq, State.prefixed]

theorem queryMode_traceBlind (w : VfoSel) : TraceBlind fun s => s.queryMode w := fun s tr => by
  simp [State.queryMode, State.prefixed]

theorem queryVfo_traceBlind : TraceBlind State.queryVfo := fun s tr => by
  simp [State.queryVfo, State.prefixed]

theorem queryLevel_traceBlind (f : LevelField) : TraceBlind fun s => s.queryLevel f := fun s tr => by
  simp [State.queryLevel, State.prefixed]

theorem queryToggle_traceBlind (t : Toggle) : TraceBlind fun s => s.queryToggle t := fun s tr => by
  simp [State.queryToggle, State.prefixed]

theorem queryWidth_traceBlind : TraceBlind State.queryWidth := fun s tr => by
  simp [State.queryWidth, State.prefixed]

theorem TraceBlind.ite {α : Type} {p : Prop} [Decidable p] {g k : State → α × State} (hg : TraceBlind g)
    (hk : TraceBlind k) : TraceBlind fun s => if p then g s else k s := by
  by_cases hp : p
  · simpa only [if_pos hp] using hg
  · simpa only [if_neg hp] using hk

/-- Compare-then-submit: the mutation is submitted unless the answer makes it needless (R240). -/
theorem submitUnless_traceBlind (p : Prop) [Decidable p] (m : Mutation) :
    TraceBlind fun s => (Reply.ack, if p then s else s.submit m) := by
  by_cases hp : p
  · simpa only [if_pos hp] using TraceBlind.pure Reply.ack
  · simp only [if_neg hp]
    exact .emit Reply.ack [.mut m]

theorem changeFreq_traceBlind (w : VfoSel) (hz : Nat) : TraceBlind (changeFreq w hz) :=
  (queryFreq_traceBlind w).bind (k := fun _ cur s => (Reply.ack, if hz = cur then s else s.submit (.setFreq w hz)))
    fun _ _ => submitUnless_traceBlind _ _

theorem changeMode_traceBlind (w : VfoSel) (m : Option InternalMode) : TraceBlind (changeMode w m) := by
  cases m with
  | none => exact .pure _
  | some m =>
    exact (queryMode_traceBlind w).bind (k := fun _ cur s => (Reply.ack, if m = cur then s else s.submit (.setMode w m)))
      fun _ _ => submitUnless_traceBlind _ _

theorem changeVfo_traceBlind (v : Option Vfo) : TraceBlind (changeVfo v) := by
  cases v with
  | none => exact .pure _
  | some v =>
    exact queryVfo_traceBlind.bind (k := fun _ cur s => (Reply.ack, if v = cur then s else s.submit (.selectVfo v)))
      fun _ _ => submitUnless_traceBlind _ _

theorem readLevel_traceBlind (f : LevelField) : TraceBlind (readLevel f) :=
  (queryLevel_traceBlind f).bind
    (k := fun c v s => if levelInRange f v = true then
      (Reply.answer (encodeHighFirst (scaleQuery c.roundTies f v).toNat 4), s) else (Reply.fault f v, s))
    fun _ _ => .ite (.pure _) (.pure _)

theorem changeLevel_traceBlind (f : LevelField) (n : Nat) : TraceBlind (changeLevel f n) :=
  (queryLevel_traceBlind f).bind
    (k := fun c v s => if levelInRange f v = true then
      (Reply.ack, s.control (.applyDelta f (scaleSet c.divRounding f n v))) else (Reply.fault f v, s))
    fun _ _ => .ite (.emit _ [_]) (.pure _)

theorem readToggle_traceBlind (t : Toggle) : TraceBlind (readToggle t) :=
  (queryToggle_traceBlind t).map fun _ b => Reply.answer [b]

theorem changeToggle_traceBlind (t : Toggle) (b : Byte) : TraceBlind (changeToggle t b) :=
  (TraceBlind.emit () [.ctl (.setToggle t b)]).bind (k := fun _ _ s => (Reply.ack, s.notify))
    fun _ _ => .emit _ [.notify]

theorem answerFreq_traceBlind (w : VfoSel) : TraceBlind (answerFreq w) :=
  (queryFreq_traceBlind w).map fun _ hz => Reply.answer (encodeLowFirst hz 10)

/-- The next state, put behind more events; a stop stays as it is. -/
def Result.prefixed (tr : List Event) : Result → Result
  | .next t => .next (t.prefixed tr)
  | .fault r => .fault r
  | .refused r => .refused r

theorem conclude_prefixed {g : State → Reply × State} (hg : TraceBlind g) (s : State) (tr : List Event) (src : Byte)
    (head : List Byte) : conclude src head (g (s.prefixed tr)) = Result.prefixed tr (conclude src head (g s)) := by
  rw [hg s tr]
  exact congrArg Host.Outcome.next (State.settle_prefixed _ _ _ _ _)

/-- Every meaning makes the same events and the same state whatever the trace holds already. -/
theorem exec_prefixed (i : Instr) (s : State) (tr : List Event) :
    exec i (s.prefixed tr) = Result.prefixed tr (exec i s) := by
  cases i
  case rdFreq | selFreqQ => exact conclude_prefixed (answerFreq_traceBlind _) s tr _ _
  case rdMode =>
    exact conclude_prefixed ((queryMode_traceBlind .selected).map fun c m => .answer [(toProtocol c m).1, c.filterCode])
      s tr _ _
  case selModeQ w =>
    exact conclude_prefixed ((queryMode_traceBlind w).map fun c m =>
      .answer [(toProtocol c m).1, dataByte (toProtocol c m).2, c.filterCode]) s tr _ _
  case memWidthQ =>
    exact conclude_prefixed (queryWidth_traceBlind.map fun c n => .answer (encodeHighFirst n c.widthDigits)) s tr _ _
  case rdTrxid => exact conclude_prefixed (.pure _) s tr _ _
  case setFreq | selFreqS => exact conclude_prefixed (changeFreq_traceBlind _ _) s tr _ _
  case setMode | setModeFil | selModeS => exact conclude_prefixed (changeMode_traceBlind _ _) s tr _ _
  case setVfo => exact conclude_prefixed (changeVfo_traceBlind _) s tr _ _
  case lvlAfQ | lvlRfQ | lvlSqlQ | lvlNrQ | lvlNbQ | lvlPwrQ | lvlDnfQ =>
    exact conclude_prefixed (readLevel_traceBlind _) s tr _ _
  case lvlAfS | lvlRfS | lvlSqlS | lvlNrS | lvlNbS | lvlPwrS | lvlDnfS =>
    exact conclude_prefixed (changeLevel_traceBlind _ _) s tr _ _
  case spltQ | attQ | funcPreampQ | funcAgcQ | funcNbQ | funcNrQ | funcDnfQ | pttQ | atuQ =>
    exact conclude_prefixed (readToggle_traceBlind _) s tr _ _
  case spltS | attS | funcPreampS | funcAgcS | funcNbS | funcNrS | funcDnfS | pttS | atuS =>
    exact conclude_prefixed (changeToggle_traceBlind _ _) s tr _ _

/-- No meaning reads DST (R122). -/
theorem exec_withDst (d : Byte) (i : Instr) (s : State) : exec (i.withDst d) s = exec i s := by
  cases i <;> rfl

/-- A frame that passes the framing check is answered as if its echo were all that the trace holds, and so is the frame with
any other DST: `t` is what either dispatch adds to its echo. -/
theorem dispatchFrame_anyDst (s : State) (src cmd x : Byte) (rest : List Byte) :
    ∃ t : State, ∀ d, dispatchFrame (preByte :: preByte :: d :: src :: cmd :: x :: rest) s
      = .next (t.prefixed (s.trace ++ (preByte :: preByte :: d :: src :: cmd :: x :: rest).map Event.tx)) := by
  have hdst := fun d => decodeFrame_withDst s.cfg 0#8 d src cmd x rest
  cases hdec : decodeFrame s.cfg (preByte :: preByte :: 0#8 :: src :: cmd :: x :: rest) with
  | ok i =>
    obtain ⟨r, u, hexec, -⟩ := exec_cases i { s with trace := [] }
    refine ⟨u.settle i.addrs.2 (i.handler.head s.cfg) r, fun d => ?_⟩
    rw [dispatchFrame_ok ((hdst d).trans (congrArg _ hdec)), exec_withDst, State.transmit_eq_prefixed, exec_prefixed, hexec]
    rfl
  | error e =>
    cases e with
    | framing => cases (framingBad_envelope 0#8 src cmd x rest).symm.trans (decodeFrame_framing.1 hdec)
    | nak r =>
      refine ⟨State.settle { s with trace := [] } src [] (.nak r), fun d => ?_⟩
      rw [dispatchFrame_nak ((hdst d).trans (congrArg _ hdec)), State.transmit_eq_prefixed]
      exact congrArg Host.Outcome.next (State.settle_prefixed _ _ src [] (.nak r))

/-! The obligations on a dispatch. -/

/-- Settles O11: a decoded frame is echoed and its meaning run. -/
theorem stepRunsTheDecodedInstruction : Obligations.StepRunsTheDecodedInstruction := by
  intro s req i hc hp hreq hdec
  rw [step_of_request hc hp hreq, dispatchFrame_ok hdec]

/-- Settles O12: the three causes are `framingBad`, which is the decoder's framing error. -/
theorem framingErrorIsDropped : Obligations.FramingErrorIsDropped := by
  intro s req hc hp hreq hbad
  have hframing : framingBad req = true := by
    simpa [framingBad, preByte, or_assoc] using hbad
  rw [step_of_request hc hp hreq, dispatchFrame_framing (decodeFrame_framing.2 hframing), State.finish_eq]

/-- Settles O13: the NAK after the echo, as one state. -/
theorem rejectedRequestIsAnsweredNak : Obligations.RejectedRequestIsAnsweredNak := by
  intro s req r hc hp hreq hdec
  rw [step_of_request hc hp hreq, dispatchFrame_nak hdec, State.echoed_negativeAck_eq]
  rfl

/-- Settles O17: a framing error finishes without a trace, every other frame is `dispatchFrame_responds`. -/
theorem oneEchoThenOneResponse : Obligations.OneEchoThenOneResponse := by
  intro s t req hp hreq h
  have hdispatch : dispatchFrame req s = .next t := (phaseStep_of_request hp hreq).symm.trans (phaseStep_of_step h)
  cases hbad : framingBad req with
  | true =>
    rw [dispatchFrame_framing (decodeFrame_framing.2 hbad)] at hdispatch
    cases hdispatch
    exact .inl ⟨rfl, rfl⟩
  | false => exact .inr ⟨rfl, dispatchFrame_responds hbad hdispatch⟩

/-- Settles O18: `dispatchFrame_anyDst`; the events are those of its `t`. -/
theorem destinationIsNeverExamined : Obligations.DestinationIsNeverExamined := by
  intro s d1 d2 src cmd x rest
  obtain ⟨t, ht⟩ := dispatchFrame_anyDst s src cmd x rest
  exact ⟨_, _, t.trace, ht d1, ht d2, rfl, rfl⟩

end Sys2Proof.Machine

/-! PROOF. The BCD codec (42_bcd_codec.md): range, round trip, truncation and face value (R151 to R158). The layer first: both
digit orders are one. `lowFirstValue` and `pairBytes` are inverse between the numbers below `100^m` and the lists of `m` digit
pairs, least significant first; the high-first order is that list reversed, behind the leftover digit where `n` is odd. -/

namespace Sys2Proof.Machine

/-! Digits and digit pairs. -/

/-- Both nibbles are decimal digits (R155, R156). -/
def IsDigitPair (b : Byte) : Prop := hiNibble b ≤ 9 ∧ loNibble b ≤ 9

/-- The lowest `m` digit pairs of `w`, the least significant first. -/
def pairBytes (w m : Nat) : List Byte :=
  (List.range m).map fun i => digitPair (digit w (2 * i + 1)) (digit w (2 * i))

theorem digit_le (w j : Nat) : digit w j ≤ 9 := Nat.le_of_lt_succ (Nat.mod_lt _ (by decide))

theorem digit_add_two (w j : Nat) : digit w (j + 2) = digit (w / 100) j := by
  rw [digit, digit, Nat.div_div_eq_div_mul, Nat.pow_add, Nat.mul_comm]

theorem hundred_pow (m : Nat) : 100 ^ m = 10 ^ (2 * m) := (pow_mul 10 2 m).symm

theorem hiNibble_digitPair {h l : Nat} (hh : h ≤ 9) (hl : l ≤ 9) : hiNibble (digitPair h l) = h := by
  simp only [hiNibble, digitPair, BitVec.toNat_ofNat]
  omega

theorem loNibble_digitPair (h : Nat) {l : Nat} (hl : l ≤ 9) : loNibble (digitPair h l) = l := by
  simp only [loNibble, digitPair, BitVec.toNat_ofNat]
  omega

theorem digitPair_isDigitPair {h l : Nat} (hh : h ≤ 9) (hl : l ≤ 9) : IsDigitPair (digitPair h l) :=
  ⟨(hiNibble_digitPair hh hl).trans_le hh, (loNibble_digitPair h hl).trans_le hl⟩

/-- A byte is made of its two nibbles. -/
theorem digitPair_nibbles (b : Byte) : digitPair (hiNibble b) (loNibble b) = b := by
  apply BitVec.eq_of_toNat_eq
  simp only [digitPair, hiNibble, loNibble, BitVec.toNat_ofNat]
  omega

theorem pairValue_digitPair {h l : Nat} (hh : h ≤ 9) (hl : l ≤ 9) : pairValue (digitPair h l) = h * 10 + l := by
  rw [pairValue, hiNibble_digitPair hh hl, loNibble_digitPair h hl]

/-- Two nibbles at face value make at most 15 * 11 (R155, R158). -/
theorem pairValue_le (b : Byte) : pairValue b ≤ 15 * 11 := by
  simp only [pairValue, hiNibble, loNibble]
  omega

theorem IsDigitPair.pairValue_le {b : Byte} (h : IsDigitPair b) : pairValue b ≤ 9 * 11 := by
  obtain ⟨hhi, hlo⟩ := h
  simp only [pairValue]
  omega

/-- PRE and END have a nibble above 9, so no digit pair is one of them (R157). -/
theorem IsDigitPair.ne_framing {b : Byte} (h : IsDigitPair b) : b ≠ 0xFD#8 ∧ b ≠ 0xFE#8 := by
  constructor
  · rintro rfl; exact absurd h.1 (by decide)
  · rintro rfl; exact absurd h.1 (by decide)

/-! Lists of digit pairs, the least significant first. -/

theorem length_pairBytes (w m : Nat) : (pairBytes w m).length = m := by simp [pairBytes]

theorem pairBytes_isDigitPair (w m : Nat) : ∀ b ∈ pairBytes w m, IsDigitPair b := by
  intro b hb
  obtain ⟨i, -, rfl⟩ := List.mem_map.1 hb
  exact digitPair_isDigitPair (digit_le _ _) (digit_le _ _)

/-- The lowest pair, before the pairs of what is left. -/
theorem pairBytes_succ (w m : Nat) :
    pairBytes w (m + 1) = digitPair (digit w 1) (digit w 0) :: pairBytes (w / 100) m := by
  simp only [pairBytes, List.range_succ_eq_map, List.map_cons, List.map_map, Function.comp_def, Nat.succ_eq_add_one,
    Nat.mul_add, Nat.mul_one, Nat.mul_zero, Nat.zero_add, ← digit_add_two, Nat.add_right_comm]

/-- The pairs of `w` have the value of its low digits. -/
theorem lowFirstValue_pairBytes (m : Nat) : ∀ w, lowFirstValue (pairBytes w m) = w % 100 ^ m := by
  induction m with
  | zero => intro w; simp [pairBytes, lowFirstValue, Nat.mod_one]
  | succ m ih =>
    intro w
    have hpair : pairValue (digitPair (digit w 1) (digit w 0)) = w % 100 := by
      rw [pairValue_digitPair (digit_le w 1) (digit_le w 0)]
      simp only [digit, pow_zero, pow_one]
      omega
    rw [pairBytes_succ, lowFirstValue, ih, hpair, pow_succ', Nat.mod_mul]
    ring

/-- Digit pairs are the pairs of their value. -/
theorem pairBytes_lowFirstValue {bs : List Byte} (h : ∀ b ∈ bs, IsDigitPair b) :
    pairBytes (lowFirstValue bs) bs.length = bs := by
  induction bs with
  | nil => rfl
  | cons b bs ih =>
    obtain ⟨hb, hbs⟩ := List.forall_mem_cons.1 h
    obtain ⟨hhi, hlo⟩ := hb
    have hdigit1 : digit (lowFirstValue (b :: bs)) 1 = hiNibble b := by
      simp only [digit, lowFirstValue, pairValue, pow_one]
      omega
    have hdigit0 : digit (lowFirstValue (b :: bs)) 0 = loNibble b := by
      simp only [digit, lowFirstValue, pairValue, pow_zero]
      omega
    have hrest : lowFirstValue (b :: bs) / 100 = lowFirstValue bs := by
      simp only [lowFirstValue, pairValue]
      omega
    rw [List.length_cons, pairBytes_succ, hdigit1, hdigit0, hrest, ih hbs, digitPair_nibbles]

/-- Pairs of at most `11 * k` have at most the value of as many pairs of nibbles `k`: `k * (100^m - 1) / 9` (R155). -/
theorem lowFirstValue_bound {k : Nat} {bs : List Byte} (h : ∀ b ∈ bs, pairValue b ≤ k * 11) :
    9 * lowFirstValue bs ≤ k * (100 ^ bs.length - 1) := by
  have hsum : 9 * lowFirstValue bs + k ≤ k * 100 ^ bs.length := by
    induction bs with
    | nil => simp [lowFirstValue]
    | cons b bs ih =>
      obtain ⟨hb, hbs⟩ := List.forall_mem_cons.1 h
      calc 9 * lowFirstValue (b :: bs) + k ≤ 100 * (9 * lowFirstValue bs + k) := by
            simp only [lowFirstValue]
            omega
        _ ≤ 100 * (k * 100 ^ bs.length) := Nat.mul_le_mul_left 100 (ih hbs)
        _ = k * 100 ^ (b :: bs).length := by rw [List.length_cons]; ring
  rw [Nat.mul_sub, Nat.mul_one]
  exact Nat.le_sub_of_add_le hsum

/-- Every pair at face value, at the weight of its place (R151, R158). -/
theorem lowFirstValue_eq_sum (bs : List Byte) :
    lowFirstValue bs = ∑ i ∈ Finset.range bs.length, pairValue (bs.getD i 0#8) * 100 ^ i := by
  induction bs with
  | nil => rfl
  | cons b bs ih =>
    simp only [List.length_cons, Finset.sum_range_succ', List.getD_cons_succ, List.getD_cons_zero, pow_zero, mul_one,
      pow_succ, ← mul_assoc, ← Finset.sum_mul]
    rw [← ih, lowFirstValue]

theorem lowFirstValue_reverse_eq_sum (bs : List Byte) : lowFirstValue bs.reverse
    = ∑ i ∈ Finset.range bs.length, pairValue (bs.getD (bs.length - 1 - i) 0#8) * 100 ^ i := by
  rw [lowFirstValue_eq_sum, List.length_reverse]
  refine Finset.sum_congr rfl fun i hi => ?_
  rw [List.getD_reverse i (Finset.mem_range.1 hi)]

theorem lowFirstValue_append_singleton (bs : List Byte) (b : Byte) :
    lowFirstValue (bs ++ [b]) = lowFirstValue bs + pairValue b * 100 ^ bs.length := by
  induction bs with
  | nil => simp [lowFirstValue]
  | cons c bs ih =>
    simp only [List.cons_append, lowFirstValue, ih, List.length_cons]
    ring

/-- The high-first value after `v` is the low-first value of the reversed pairs, below `v`. -/
theorem highFirstValue_eq (bs : List Byte) :
    ∀ v, highFirstValue v bs = v * 100 ^ bs.length + lowFirstValue bs.reverse := by
  induction bs with
  | nil => intro v; simp [highFirstValue, lowFirstValue]
  | cons b bs ih =>
    intro v
    calc highFirstValue v (b :: bs) = (v * 100 + pairValue b) * 100 ^ bs.length + lowFirstValue bs.reverse := ih _
      _ = v * 100 ^ (b :: bs).length + lowFirstValue (b :: bs).reverse := by
        rw [List.reverse_cons, lowFirstValue_append_singleton, List.length_reverse, List.length_cons]
        ring

/-! The four functions, for an even digit count `2 * m` and an odd one `2 * m + 1`. -/

theorem decodeLowFirst_even {bs : List Byte} {m : Nat} (h : bs.length = m) :
    decodeLowFirst bs (2 * m) = lowFirstValue bs := by
  rw [decodeLowFirst, Nat.mul_div_cancel_left m two_pos, List.take_of_length_le h.le]

theorem decodeHighFirst_even {bs : List Byte} {m : Nat} (h : bs.length = m) :
    decodeHighFirst bs (2 * m) = lowFirstValue bs.reverse := by
  rw [decodeHighFirst, if_pos (Nat.mul_mod_right 2 m), Nat.mul_div_cancel_left m two_pos, List.take_of_length_le h.le,
    highFirstValue_eq, Nat.zero_mul, Nat.zero_add]

theorem decodeHighFirst_odd {b : Byte} {bs : List Byte} {m : Nat} (h : bs.length = m) :
    decodeHighFirst (b :: bs) (2 * m + 1) = loNibble b * 100 ^ m + lowFirstValue bs.reverse := by
  have hbytes : (2 * m + 1 + 1) / 2 = m + 1 := by omega
  rw [decodeHighFirst, if_neg (by omega), hbytes, List.take_succ_cons, List.take_of_length_le h.le]
  simp only [highFirstValue_eq, h]

theorem encodeLowFirst_even (v m : Nat) : encodeLowFirst v (2 * m) = pairBytes (v % 10 ^ (2 * m)) m := by
  rw [encodeLowFirst, Nat.mul_div_cancel_left m two_pos, pairBytes]

/-- The pairs from the most significant down are the pairs reversed. -/
theorem map_range_eq_reverse_pairBytes {w m : Nat} {f : Nat → Byte}
    (h : ∀ i < m, f i = digitPair (digit w (2 * (m - 1 - i) + 1)) (digit w (2 * (m - 1 - i)))) :
    (List.range m).map f = (pairBytes w m).reverse := by
  refine List.ext_getElem (by simp [pairBytes]) fun i hi _ => ?_
  rw [List.length_map, List.length_range] at hi
  simpa [pairBytes] using h i hi

theorem encodeHighFirst_even (v m : Nat) :
    encodeHighFirst v (2 * m) = (pairBytes (v % 10 ^ (2 * m)) m).reverse := by
  rw [encodeHighFirst, if_pos (Nat.mul_mod_right 2 m), Nat.mul_div_cancel_left m two_pos]
  refine map_range_eq_reverse_pairBytes fun i hi => ?_
  have hplace : 2 * m - 1 - 2 * i = 2 * (m - 1 - i) + 1 ∧ 2 * m - 2 - 2 * i = 2 * (m - 1 - i) := by omega
  rw [hplace.1, hplace.2]

theorem encodeHighFirst_odd (v m : Nat) : encodeHighFirst v (2 * m + 1)
    = digitPair 0 (digit (v % 10 ^ (2 * m + 1)) (2 * m)) :: (pairBytes (v % 10 ^ (2 * m + 1)) m).reverse := by
  have hhalf : (2 * m + 1) / 2 = m := by omega
  rw [encodeHighFirst, if_neg (by omega), hhalf]
  refine congrArg (List.cons _) (map_range_eq_reverse_pairBytes fun i hi => ?_)
  have hplace : 2 * m + 1 - 2 - 2 * i = 2 * (m - 1 - i) + 1 ∧ 2 * m + 1 - 3 - 2 * i = 2 * (m - 1 - i) := by omega
  rw [hplace.1, hplace.2]

/-! Decode after encode, for every digit count (R156, R157). -/

theorem decodeLowFirst_encodeLowFirst (v m : Nat) :
    decodeLowFirst (encodeLowFirst v (2 * m)) (2 * m) = v % 10 ^ (2 * m) := by
  rw [encodeLowFirst_even, decodeLowFirst_even (length_pairBytes _ m), lowFirstValue_pairBytes, hundred_pow, Nat.mod_mod]

theorem decodeHighFirst_encodeHighFirst (v n : Nat) : decodeHighFirst (encodeHighFirst v n) n = v % 10 ^ n := by
  obtain ⟨m, rfl | rfl⟩ := Nat.even_or_odd' n
  · rw [encodeHighFirst_even, decodeHighFirst_even ((List.length_reverse).trans (length_pairBytes _ m)),
      List.reverse_reverse, lowFirstValue_pairBytes, hundred_pow, Nat.mod_mod]
  · have htop : v % 10 ^ (2 * m + 1) / 10 ^ (2 * m) < 10 :=
      Nat.div_lt_of_lt_mul ((Nat.mod_lt v (by positivity)).trans_eq (pow_succ 10 (2 * m)))
    rw [encodeHighFirst_odd, decodeHighFirst_odd ((List.length_reverse).trans (length_pairBytes _ m)),
      List.reverse_reverse, lowFirstValue_pairBytes, loNibble_digitPair 0 (digit_le _ _), hundred_pow, digit,
      Nat.mod_eq_of_lt htop, Nat.div_add_mod']

/-! Encode after decode, on digit pairs (R156). -/

theorem lowFirstValue_lt {bs : List Byte} (h : ∀ b ∈ bs, IsDigitPair b) : lowFirstValue bs < 100 ^ bs.length := by
  have hbound := lowFirstValue_bound fun b hb => (h b hb).pairValue_le
  have hpos : 0 < 100 ^ bs.length := by positivity
  omega

theorem encodeLowFirst_decodeLowFirst {bs : List Byte} {m : Nat} (hl : bs.length = m) (h : ∀ b ∈ bs, IsDigitPair b) :
    encodeLowFirst (decodeLowFirst bs (2 * m)) (2 * m) = bs := by
  subst hl
  rw [decodeLowFirst_even rfl, encodeLowFirst_even, ← hundred_pow, Nat.mod_eq_of_lt (lowFirstValue_lt h),
    pairBytes_lowFirstValue h]

theorem encodeHighFirst_decodeHighFirst {bs : List Byte} {m : Nat} (hl : bs.length = m) (h : ∀ b ∈ bs, IsDigitPair b) :
    encodeHighFirst (decodeHighFirst bs (2 * m)) (2 * m) = bs := by
  have hrev : ∀ b ∈ bs.reverse, IsDigitPair b := fun b hb => h b (List.mem_reverse.1 hb)
  have hlrev : bs.reverse.length = m := List.length_reverse.trans hl
  subst hlrev
  rw [decodeHighFirst_even hl, encodeHighFirst_even, ← hundred_pow, Nat.mod_eq_of_lt (lowFirstValue_lt hrev),
    pairBytes_lowFirstValue hrev, List.reverse_reverse]

/-! What the encoders send (R152, R154, R157). -/

theorem length_encodeHighFirst (v n : Nat) : (encodeHighFirst v n).length = (n + 1) / 2 := by
  obtain ⟨m, rfl | rfl⟩ := Nat.even_or_odd' n
  · rw [encodeHighFirst_even, List.length_reverse, length_pairBytes]
    omega
  · rw [encodeHighFirst_odd, List.length_cons, List.length_reverse, length_pairBytes]
    omega

theorem encodeHighFirst_isDigitPair (v n : Nat) : ∀ b ∈ encodeHighFirst v n, IsDigitPair b := by
  intro b hb
  obtain ⟨m, rfl | rfl⟩ := Nat.even_or_odd' n
  · rw [encodeHighFirst_even] at hb
    exact pairBytes_isDigitPair _ m b (List.mem_reverse.1 hb)
  · rw [encodeHighFirst_odd] at hb
    rcases List.mem_cons.1 hb with rfl | hb
    · exact digitPair_isDigitPair (Nat.zero_le 9) (digit_le _ _)
    · exact pairBytes_isDigitPair _ m b (List.mem_reverse.1 hb)

/-- Only the low `n` digits count (R157). -/
theorem encodeHighFirst_mod (v n : Nat) : encodeHighFirst (v % 10 ^ n) n = encodeHighFirst v n := by
  rw [encodeHighFirst, Nat.mod_mod, ← encodeHighFirst]

theorem encodeLowFirst_mod (v n : Nat) : encodeLowFirst (v % 10 ^ n) n = encodeLowFirst v n := by
  rw [encodeLowFirst, Nat.mod_mod, ← encodeLowFirst]

/-! The obligations. -/

/-- Settles O22: the general round trips, at the two even counts. -/
theorem bcdRoundTrip : Obligations.BcdRoundTrip := by
  intro n hn
  obtain ⟨m, rfl⟩ : 2 ∣ n := by omega
  rw [Nat.mul_div_cancel_left m two_pos]
  refine ⟨fun d hd => ?_, fun bs hl h => ⟨encodeHighFirst_decodeHighFirst hl h, encodeLowFirst_decodeLowFirst hl h⟩⟩
  rw [decodeHighFirst_encodeHighFirst, decodeLowFirst_encodeLowFirst, Nat.mod_eq_of_lt hd]
  exact ⟨rfl, rfl⟩

/-- Settles O23: `lowFirstValue_bound` with nibbles up to 15 and up to 9, in both orders. -/
theorem bcdDecoderRange : Obligations.BcdDecoderRange := by
  intro n bs heven hl
  obtain ⟨m, rfl⟩ := Nat.dvd_of_mod_eq_zero heven
  rw [Nat.mul_div_cancel_left m two_pos] at hl
  rw [decodeLowFirst_even hl, decodeHighFirst_even hl]
  have hlow {k : Nat} (h : ∀ b ∈ bs, pairValue b ≤ k * 11) : 9 * lowFirstValue bs ≤ k * (10 ^ (2 * m) - 1) := by
    rw [← hundred_pow, ← hl]
    exact lowFirstValue_bound h
  have hhigh {k : Nat} (h : ∀ b ∈ bs, pairValue b ≤ k * 11) :
      9 * lowFirstValue bs.reverse ≤ k * (10 ^ (2 * m) - 1) := by
    rw [← hundred_pow, ← hl, ← bs.length_reverse]
    exact lowFirstValue_bound fun b hb => h b (List.mem_reverse.1 hb)
  have hlow15 := hlow fun b _ => pairValue_le b
  have hhigh15 := hhigh fun b _ => pairValue_le b
  refine ⟨hlow15, hhigh15, fun h => ?_, fun h10 => ?_, fun h4 => ?_⟩
  · have hdigits : ∀ b ∈ bs, pairValue b ≤ 9 * 11 := fun b hb => IsDigitPair.pairValue_le (h b hb)
    exact ⟨Nat.le_of_mul_le_mul_left (hlow hdigits) (by decide), Nat.le_of_mul_le_mul_left (hhigh hdigits) (by decide)⟩
  · rw [h10] at hlow15
    omega
  · rw [h4] at hhigh15
    omega

/-- Settles O24: decoding what was encoded, and the shape of what was encoded. -/
theorem bcdEncodersTruncateToDigits : Obligations.BcdEncodersTruncateToDigits := by
  intro v n _
  refine ⟨(encodeHighFirst_mod v n).symm, length_encodeHighFirst v n, decodeHighFirst_encodeHighFirst v n, fun b hb => ?_,
    fun hodd => ?_, fun heven => ⟨(encodeLowFirst_mod v n).symm, ?_⟩⟩
  · have hpair := encodeHighFirst_isDigitPair v n b hb
    exact ⟨hpair.1, hpair.2, hpair.ne_framing⟩
  · obtain ⟨m, rfl⟩ := Nat.odd_iff.2 hodd
    rw [encodeHighFirst_odd, List.getD_cons_zero, hiNibble_digitPair (Nat.zero_le 9) (digit_le _ _)]
  · obtain ⟨m, rfl⟩ := Nat.dvd_of_mod_eq_zero heven
    rw [decodeLowFirst_encodeLowFirst, encodeLowFirst_even, length_pairBytes, Nat.mul_div_cancel_left m two_pos]
    refine ⟨rfl, rfl, fun b hb => ?_⟩
    have hpair := pairBytes_isDigitPair _ m b hb
    exact ⟨hpair.1, hpair.2, hpair.ne_framing⟩

/-- Settles O51: the sums over the pairs; below an odd count's first byte, byte `m - i` is byte `m - 1 - i` of the rest. -/
theorem bcdDecodersTakeNibblesAtFaceValue : Obligations.BcdDecodersTakeNibblesAtFaceValue := by
  intro n bs hl
  refine ⟨fun heven => ?_, fun hodd => ?_⟩
  · obtain ⟨m, rfl⟩ := Nat.dvd_of_mod_eq_zero heven
    obtain rfl : bs.length = m := by omega
    rw [Nat.mul_div_cancel_left _ two_pos, decodeLowFirst_even rfl, decodeHighFirst_even rfl]
    exact ⟨lowFirstValue_eq_sum bs, lowFirstValue_reverse_eq_sum bs⟩
  · obtain ⟨m, rfl⟩ := Nat.odd_iff.2 hodd
    have hhalf : (2 * m + 1) / 2 = m := by omega
    cases bs with
    | nil => rw [List.length_nil] at hl; omega
    | cons b cs =>
      obtain rfl : cs.length = m := by rw [List.length_cons] at hl; omega
      rw [hhalf, decodeHighFirst_odd rfl, lowFirstValue_reverse_eq_sum]
      refine congrArg (_ + ·) (Finset.sum_congr rfl fun i hi => ?_)
      have hplace : cs.length - i = cs.length - 1 - i + 1 := by
        have := Finset.mem_range.1 hi
        omega
      rw [hplace]
      rfl

end Sys2Proof.Machine

/-! PROOF. The level scaler (43_level_scaler.md R171 to R182). The layer first: one rule for each division. `ceilDiv` is the
least quotient that covers the dividend, `roundQ` is a nearest quotient whatever the tie rule, and `divDelta` is the quotient
rounded down or, on a negative delta, one more. The bounds, the end points and the round trip follow from these by linear
arithmetic in the field's own range. -/

namespace Sys2Proof.Machine

/-! Rounding up (R9). -/

theorem ceilDiv_le_iff {a b t : Int} (hb : 0 < b) : ceilDiv a b ≤ t ↔ a ≤ t * b := by
  rw [ceilDiv, ← Int.lt_add_one_iff, Int.ediv_lt_iff_lt_mul hb, Int.add_mul]
  omega

theorem lt_ceilDiv_iff {a b t : Int} (hb : 0 < b) : t < ceilDiv a b ↔ t * b < a := by
  rw [← Int.not_le, ceilDiv_le_iff hb, Int.not_le]

theorem ceilDiv_bounds (a : Int) {b : Int} (hb : 0 < b) : (ceilDiv a b - 1) * b < a ∧ a ≤ ceilDiv a b * b :=
  ⟨(lt_ceilDiv_iff hb).1 (Int.sub_one_lt_of_le le_rfl), (ceilDiv_le_iff hb).1 le_rfl⟩

/-- A multiple of the step passes through the rounding (R179). -/
theorem roundUp_add_mul {m : Int} (hm : m ≠ 0) (x k : Int) : roundUp (x + k * m) m = roundUp x m + k * m := by
  have hnum : x + k * m + m - 1 = x + m - 1 + k * m := by ring
  rw [roundUp, roundUp, ceilDiv, ceilDiv, hnum, Int.add_mul_ediv_right _ _ hm, Int.add_mul]

/-! Rounding to nearest (R9, D22): every tie rule answers a quotient within half a divisor. -/

theorem roundQ_nearest (ties : RoundTies) (n : Int) {d : Int} (hd : 0 < d) :
    2 * n - d ≤ 2 * d * roundQ ties n d ∧ 2 * d * roundQ ties n d ≤ 2 * n + d := by
  have hpos : 0 < 2 * d := by omega
  have hup := Int.mul_ediv_add_emod (2 * n + d) (2 * d)
  have hupLow := Int.emod_nonneg (2 * n + d) hpos.ne'
  have hupHigh := Int.emod_lt_of_pos (2 * n + d) hpos
  cases ties with
  | halfUp => constructor <;> simp only [roundQ] <;> omega
  | halfDown =>
    have hdown := Int.mul_ediv_add_emod (2 * n + d - 1) (2 * d)
    have hdownLow := Int.emod_nonneg (2 * n + d - 1) hpos.ne'
    have hdownHigh := Int.emod_lt_of_pos (2 * n + d - 1) hpos
    constructor <;> simp only [roundQ] <;> omega
  | halfEven =>
    simp only [roundQ]
    split
    next htie =>
      obtain ⟨hexact, -⟩ := htie
      rw [Int.mul_sub]
      constructor <;> omega
    next => constructor <;> omega

theorem le_roundQ {ties : RoundTies} {n d a : Int} (hd : 0 < d) (h : a * d ≤ n) : a ≤ roundQ ties n d := by
  have hnear := (roundQ_nearest ties n hd).1
  have hscaled : d * (2 * a - 1) ≤ d * (2 * roundQ ties n d) := by linarith
  have := Int.le_of_mul_le_mul_left hscaled hd
  omega

theorem roundQ_le {ties : RoundTies} {n d b : Int} (hd : 0 < d) (h : n ≤ b * d) : roundQ ties n d ≤ b := by
  have hnear := (roundQ_nearest ties n hd).2
  have hscaled : d * (2 * roundQ ties n d) ≤ d * (2 * b + 1) := by linarith
  have := Int.le_of_mul_le_mul_left hscaled hd
  omega

/-! Dividing a delta by its step (R9, D24). -/

/-- TRUNC and FLOOR differ on a negative delta alone, where TRUNC can be one more. -/
theorem divDelta_cases (rounding : DivRounding) (x : Int) {d : Int} (hd : 0 < d) :
    divDelta rounding x d = x / d ∨ x < 0 ∧ divDelta rounding x d = x / d + 1 := by
  cases rounding with
  | floor => exact .inl rfl
  | trunc =>
    rw [divDelta, Int.tdiv_eq_ediv, Int.sign_eq_one_of_pos hd]
    split
    next => exact .inl (Int.add_zero _)
    next hneg => exact .inr ⟨Int.not_le.1 fun hx => hneg (.inl hx), rfl⟩

theorem le_divDelta {rounding : DivRounding} {x d a : Int} (hd : 0 < d) (h : a * d ≤ x) : a ≤ divDelta rounding x d := by
  have hfloor : a ≤ x / d := (Int.le_ediv_iff_mul_le hd).2 h
  rcases divDelta_cases rounding x hd with heq | ⟨-, heq⟩ <;> omega

theorem divDelta_le {rounding : DivRounding} {x d b : Int} (hd : 0 < d) (hb : 0 ≤ b) (h : x < (b + 1) * d) :
    divDelta rounding x d ≤ b := by
  rcases divDelta_cases rounding x hd with heq | ⟨hneg, heq⟩
  · have hfloor : x / d < b + 1 := (Int.ediv_lt_iff_lt_mul hd).2 h
    omega
  · have hfloor : x / d < 0 := Int.ediv_neg_of_neg_of_pos hneg hd
    omega

/-- A delta below one step is no step. -/
theorem divDelta_eq_zero {rounding : DivRounding} {x d : Int} (hx : 0 ≤ x) (hd : x < d) : divDelta rounding x d = 0 :=
  le_antisymm (divDelta_le (by omega) le_rfl (by omega)) (le_divDelta (by omega) (by omega))

/-! The field table (R171, R172). -/

theorem levelInRange_iff {f : LevelField} {cur : Int} :
    levelInRange f cur = true ↔ levelMin f ≤ cur ∧ cur ≤ levelMax f := by
  simp [levelInRange]

theorem levelInRange_eq_false_iff {f : LevelField} {cur : Int} :
    levelInRange f cur = false ↔ cur < levelMin f ∨ levelMax f < cur := by
  rw [← Bool.not_eq_true, levelInRange_iff]
  omega

theorem levelMin_lt_levelMax (f : LevelField) : levelMin f < levelMax f := by cases f <;> decide

/-- No range spans more than the 2900 Hz of DNF. -/
theorem levelSpan_le (f : LevelField) : levelMax f - levelMin f ≤ 2900 := by cases f <;> decide

/-! The query direction (R174). -/

/-- PWR's own formula is the general one on tenths. -/
theorem scaleQuery_eq (ties : RoundTies) (f : LevelField) (cur : Int) :
    scaleQuery ties f cur = roundQ ties ((cur - levelMin f) * 255) (levelMax f - levelMin f) := by
  cases f with
  | pwr => rw [scaleQuery, levelMin, levelMax, Int.sub_zero, Int.sub_zero]
  | af | rf | sql | nr | nb | dnf => rfl

theorem scaleQuery_levelMin (ties : RoundTies) (f : LevelField) : scaleQuery ties f (levelMin f) = 0 := by
  have hspan : 0 < levelMax f - levelMin f := Int.sub_pos_of_lt (levelMin_lt_levelMax f)
  rw [scaleQuery_eq]
  exact le_antisymm (roundQ_le hspan (by simp)) (le_roundQ hspan (by simp))

theorem scaleQuery_levelMax (ties : RoundTies) (f : LevelField) : scaleQuery ties f (levelMax f) = 255 := by
  have hspan : 0 < levelMax f - levelMin f := Int.sub_pos_of_lt (levelMin_lt_levelMax f)
  rw [scaleQuery_eq]
  exact le_antisymm (roundQ_le hspan (Int.mul_comm _ _).le) (le_roundQ hspan (Int.mul_comm _ _).le)

theorem scaleQuery_mem_wireScale (ties : RoundTies) {f : LevelField} {cur : Int} (h : levelInRange f cur = true) :
    0 ≤ scaleQuery ties f cur ∧ scaleQuery ties f cur ≤ 255 := by
  obtain ⟨hmin, hmax⟩ := levelInRange_iff.1 h
  have hspan : 0 < levelMax f - levelMin f := Int.sub_pos_of_lt (levelMin_lt_levelMax f)
  rw [scaleQuery_eq]
  exact ⟨le_roundQ hspan (by omega), roundQ_le hspan (by omega)⟩

/-- A scaled answer lies within half a wire step of the value: the reason R182 gives, cleared of its denominators. -/
theorem scaleQuery_nearest (ties : RoundTies) (f : LevelField) (cur : Int) :
    510 * (cur - levelMin f) - (levelMax f - levelMin f)
        ≤ 2 * (scaleQuery ties f cur * (levelMax f - levelMin f))
      ∧ 2 * (scaleQuery ties f cur * (levelMax f - levelMin f))
        ≤ 510 * (cur - levelMin f) + (levelMax f - levelMin f) := by
  have hnear := roundQ_nearest ties ((cur - levelMin f) * 255) (Int.sub_pos_of_lt (levelMin_lt_levelMax f))
  rw [← scaleQuery_eq, Int.mul_assoc, Int.mul_comm (levelMax f - levelMin f)] at hnear
  omega

/-- Four digits of a number on the wire scale: the first byte holds its hundreds (R152, R175). -/
theorem encodeHighFirst_wireScale {v : Nat} (h : v ≤ 255) :
    ∃ b0 b1, encodeHighFirst v 4 = [b0, b1] ∧ b0.toNat ≤ 2 := by
  have hfits : v % 10 ^ (2 * 2) = v := Nat.mod_eq_of_lt (by omega)
  refine ⟨digitPair (digit v 3) (digit v 2), digitPair (digit v 1) (digit v 0), ?_, ?_⟩
  · rw [encodeHighFirst_even v 2, hfits]
    rfl
  · simp only [digitPair, digit, BitVec.toNat_ofNat]
    omega

/-! The set direction (R176 to R180). -/

/-- Two payload bytes decode to at most 16665 (R155, R173). -/
theorem operandLvl4_le (h l : Byte) : operandLvl4 h l ≤ 16665 := by
  obtain ⟨-, -, -, -, hfour⟩ := bcdDecoderRange 4 [h, l] rfl rfl
  exact hfour rfl

theorem scaleSet_af (rounding : DivRounding) (s cur : Int) :
    scaleSet rounding .af s cur = ceilDiv (s * 55) 255 - cur := by
  simp [scaleSet, levelMin, levelMax]

theorem scaleSet_rf (rounding : DivRounding) (s cur : Int) :
    scaleSet rounding .rf s cur = ceilDiv (s * 100) 255 - cur := by
  simp [scaleSet, levelMin, levelMax]

theorem scaleSet_sql (rounding : DivRounding) (s cur : Int) :
    scaleSet rounding .sql s cur = ceilDiv (s * 100) 255 - cur := by
  simp [scaleSet, levelMin, levelMax]

theorem scaleSet_nr (rounding : DivRounding) (s cur : Int) :
    scaleSet rounding .nr s cur = divDelta rounding (ceilDiv (s * 60) 255 - cur) 5 := by
  simp [scaleSet, levelMin, levelMax]

theorem scaleSet_nb (rounding : DivRounding) (s cur : Int) :
    scaleSet rounding .nb s cur = divDelta rounding (ceilDiv (s * 100) 255 - cur) 5 := by
  simp [scaleSet, levelMin, levelMax]

theorem scaleSet_pwr (rounding : DivRounding) (s cur : Int) :
    scaleSet rounding .pwr s cur = 10 * ceilDiv (s * 10) 255 - cur := rfl

theorem scaleSet_dnf (rounding : DivRounding) (s cur : Int) :
    scaleSet rounding .dnf s cur = divDelta rounding (roundUp (ceilDiv (s * 2900) 255) 50 + 100 - cur) 50 := rfl

/-- The target of a payload of two bytes lies between 0 and the target of the largest (R173). -/
theorem target_bounds {s span top : Int} (hs : 0 ≤ s) (hle : s ≤ 16665) (hspan : 0 ≤ span)
    (htop : 16665 * span ≤ top * 255) :
    0 ≤ ceilDiv (s * span) 255 ∧ ceilDiv (s * span) 255 ≤ top := by
  have hbounds := ceilDiv_bounds (s * span) (b := 255) (by decide)
  have hproduct : 0 ≤ s * span := Int.mul_nonneg hs hspan
  have hmono : s * span ≤ 16665 * span := Int.mul_le_mul_of_nonneg_right hle hspan
  omega

/-- The target of a field that starts at 0 and whose half wire step is below one unit, set to the value just queried (R182). -/
theorem target_of_scaleQuery (ties : RoundTies) {f : LevelField} (hmin : levelMin f = 0) (hspan : levelMax f < 510)
    (cur : Int) :
    ceilDiv (scaleQuery ties f cur * levelMax f) 255 - cur = 0
      ∨ ceilDiv (scaleQuery ties f cur * levelMax f) 255 - cur = 1 := by
  have hnear := scaleQuery_nearest ties f cur
  have hbounds := ceilDiv_bounds (scaleQuery ties f cur * levelMax f) (b := 255) (by decide)
  rw [hmin, Int.sub_zero, Int.sub_zero] at hnear
  omega

theorem powerTarget_of_scaleQuery (ties : RoundTies) (cur : Int) :
    0 ≤ 10 * ceilDiv (scaleQuery ties .pwr cur * 10) 255 - cur
      ∧ 10 * ceilDiv (scaleQuery ties .pwr cur * 10) 255 - cur ≤ 10 := by
  have hnear := scaleQuery_nearest ties .pwr cur
  have hbounds := ceilDiv_bounds (scaleQuery ties .pwr cur * 10) (b := 255) (by decide)
  rw [levelMin, levelMax] at hnear
  omega

/-- Half a wire step of DNF is below 6 Hz, so that on the grid the target lands on the value or one step above. -/
theorem dnfTarget_of_scaleQuery (ties : RoundTies) {cur : Int} (hgrid : cur % 50 = 0) :
    roundUp (ceilDiv (scaleQuery ties .dnf cur * 2900) 255) 50 + 100 - cur = 0
      ∨ roundUp (ceilDiv (scaleQuery ties .dnf cur * 2900) 255) 50 + 100 - cur = 50 := by
  have hnear := scaleQuery_nearest ties .dnf cur
  have htarget := ceilDiv_bounds (scaleQuery ties .dnf cur * 2900) (b := 255) (by decide)
  have hstep := ceilDiv_bounds (ceilDiv (scaleQuery ties .dnf cur * 2900) 255) (b := 50) (by decide)
  rw [levelMin, levelMax] at hnear
  rw [roundUp]
  omega

/-! The range fault (R172, R306). -/

theorem conclude_readLevel_outOfRange {f : LevelField} {s : State} (h : levelInRange f s.nextLevel = false)
    (src : Byte) (head : List Byte) :
    conclude src head (readLevel f s) = .next ((s.queryLevel f).2.raiseFault f s.nextLevel) := by
  rw [conclude_readLevel, h, if_neg Bool.false_ne_true]

theorem conclude_changeLevel_outOfRange {f : LevelField} {s : State} (h : levelInRange f s.nextLevel = false) (n : Nat)
    (src : Byte) (head : List Byte) :
    conclude src head (changeLevel f n s) = .next ((s.queryLevel f).2.raiseFault f s.nextLevel) := by
  rw [conclude_changeLevel, h, if_neg Bool.false_ne_true]

/-! The obligations. -/

/-- Settles O25: `roundQ` keeps the bounds of the range, and its ends are exact quotients. -/
theorem scaleQuerySpansTheWireScale : Obligations.ScaleQuerySpansTheWireScale := by
  intro ties f cur h
  obtain ⟨hnonneg, hle⟩ := scaleQuery_mem_wireScale ties h
  exact ⟨hnonneg, hle, scaleQuery_levelMin ties f, scaleQuery_levelMax ties f, encodeHighFirst_wireScale (by omega)⟩

/-- Settles O26: each field's target is at most that of the largest payload, 16665. -/
theorem scalerArgumentBounds : Obligations.ScalerArgumentBounds := by
  intro rounding f h l cur hrange s arg
  have hs : 0 ≤ s := Int.natCast_nonneg _
  have hle : s ≤ 16665 := Int.ofNat_le.2 (operandLvl4_le h l)
  obtain ⟨hmin, hmax⟩ := levelInRange_iff.1 hrange
  have hspan : 0 ≤ levelMax f - levelMin f := Int.sub_nonneg_of_le (levelMin_lt_levelMax f).le
  have hwidest := levelSpan_le f
  refine ⟨hle, ?_, by omega, ?_⟩
  · calc s * (levelMax f - levelMin f) ≤ 16665 * 2900 := Int.mul_le_mul hle hwidest hspan (by decide)
      _ = 48328500 := rfl
  · cases f with
    | af =>
      have htarget := target_bounds (span := 55) (top := 3595) hs hle (by decide) (by decide)
      simp only [arg, scaleSet_af, levelMin, levelMax] at hmin hmax ⊢
      omega
    | rf | sql =>
      have htarget := target_bounds (span := 100) (top := 6536) hs hle (by decide) (by decide)
      simp only [arg, scaleSet_rf, scaleSet_sql, levelMin, levelMax] at hmin hmax ⊢
      omega
    | nr =>
      have htarget := target_bounds (span := 60) (top := 3922) hs hle (by decide) (by decide)
      simp only [arg, scaleSet_nr, levelMin, levelMax] at hmin hmax ⊢
      exact ⟨le_divDelta (by decide) (by omega), divDelta_le (by decide) (by decide) (by omega)⟩
    | nb =>
      have htarget := target_bounds (span := 100) (top := 6536) hs hle (by decide) (by decide)
      simp only [arg, scaleSet_nb, levelMin, levelMax] at hmin hmax ⊢
      exact ⟨le_divDelta (by decide) (by omega), divDelta_le (by decide) (by decide) (by omega)⟩
    | pwr =>
      have htarget := target_bounds (span := 10) (top := 654) hs hle (by decide) (by decide)
      simp only [arg, scaleSet_pwr, levelMin, levelMax] at hmin hmax ⊢
      omega
    | dnf =>
      have htarget := target_bounds (span := 2900) (top := 189524) hs hle (by decide) (by decide)
      have hstep := ceilDiv_bounds (ceilDiv (s * 2900) 255) (b := 50) (by decide)
      simp only [arg, scaleSet_dnf, roundUp, levelMin, levelMax] at hmin hmax ⊢
      exact ⟨le_divDelta (by decide) (by omega), divDelta_le (by decide) (by decide) (by omega)⟩

/-- Settles O27: a queried value lies within half a wire step, and rounding up to the field's step adds less than a step. -/
theorem queryThenSetWithinOneStep : Obligations.QueryThenSetWithinOneStep := by
  intro ties rounding f cur _ s
  have hnoStep {x : Int} (hx : x = 0 ∨ x = 1) : divDelta rounding x 5 = 0 := divDelta_eq_zero (by omega) (by omega)
  cases f with
  | af | rf | sql =>
    simp only [scaleSet_af, scaleSet_rf, scaleSet_sql]
    exact target_of_scaleQuery ties rfl (by decide) cur
  | nr =>
    have htarget := target_of_scaleQuery ties (f := .nr) rfl (by decide) cur
    exact ⟨htarget, (scaleSet_nr rounding _ cur).trans (hnoStep htarget)⟩
  | nb =>
    have htarget := target_of_scaleQuery ties (f := .nb) rfl (by decide) cur
    exact ⟨htarget, (scaleSet_nb rounding _ cur).trans (hnoStep htarget)⟩
  | pwr => exact powerTarget_of_scaleQuery ties cur
  | dnf => exact dnfTarget_of_scaleQuery ties

/-- Settles O28: `100 - cur` is a multiple of the step, and a multiple passes through the rounding. -/
theorem dnfRoundingFormsAgreeOnTheGrid : Obligations.DnfRoundingFormsAgreeOnTheGrid := by
  intro s cur hgrid
  obtain ⟨k, hk⟩ : ∃ k, 100 - cur = k * 50 := ⟨(100 - cur) / 50, by omega⟩
  rw [Int.add_sub_assoc, Int.add_sub_assoc, hk, roundUp_add_mul (by decide)]

/-- Settles O39: outside the range both forms of a level command are the query and the fault, for each field. -/
theorem levelOutOfRangeFaults : Obligations.LevelOutOfRangeFaults := by
  intro s dst src h l cur hcur dead
  subst hcur
  have hquery (f : LevelField) (hout : s.nextLevel < levelMin f ∨ levelMax f < s.nextLevel) (head : List Byte) :
      conclude src head (readLevel f s) = .next (dead f) :=
    conclude_readLevel_outOfRange (levelInRange_eq_false_iff.2 hout) src head
  have hset (f : LevelField) (hout : s.nextLevel < levelMin f ∨ levelMax f < s.nextLevel) (head : List Byte) :
      conclude src head (changeLevel f (operandLvl4 h l) s) = .next (dead f) :=
    conclude_changeLevel_outOfRange (levelInRange_eq_false_iff.2 hout) _ src head
  refine ⟨fun hout => ?_, fun hout => ?_, fun hout => ?_, fun hout => ?_⟩
  · exact ⟨hquery .af hout _, hset .af hout _⟩
  · exact ⟨hquery .rf hout _, hset .rf hout _, hquery .sql hout _, hset .sql hout _, hquery .nb hout _, hset .nb hout _,
      hquery .pwr hout _, hset .pwr hout _⟩
  · exact ⟨hquery .nr hout _, hset .nr hout _⟩
  · exact ⟨hquery .dnf hout _, hset .dnf hout _⟩

end Sys2Proof.Machine

/-! PROOF. The mode and VFO translators (44_mode_translator.md R200 to R204). Each direction has its equations first: what the
six mode codes, the two VFO codes and any other byte translate to. A code
that translates is the code its translation gives back, in every configuration (R203's second law); that a mode or a VFO comes
back from its own byte needs the codes of the table to differ. -/

namespace Sys2Proof.Machine

/-! From the protocol to the radio (R201). -/

@[simp] theorem toInternal_codeLsb (cfg : Config) (d : Bool) :
    toInternal cfg codeLsb d = some (if d then .lsbDig else .lsb) := if_pos rfl

/-- The other five rows of R201, where no code hides behind an equal one above it (R7). -/
theorem toInternal_modeCode {cfg : Config} (h : (modeCodes cfg).Nodup) (d : Bool) :
    toInternal cfg cfg.modeUsb d = some (if d then .usbDig else .usb)
      ∧ toInternal cfg cfg.modeAm d = some .am ∧ toInternal cfg cfg.modeCw d = some .cw
      ∧ toInternal cfg cfg.modeNfm d = some .nfm ∧ toInternal cfg cfg.modeCwr d = some .cwr := by
  simp only [modeCodes, List.nodup_cons, List.mem_cons, not_or] at h
  obtain ⟨hlsb, husb, ham, hcw, hnfm, -⟩ := h
  simp [toInternal, hlsb, husb, ham, hcw, hnfm, eq_comm]

theorem toInternal_of_not_mem {cfg : Config} {c : Byte} (h : c ∉ modeCodes cfg) (d : Bool) :
    toInternal cfg c d = none := by
  simp only [modeCodes, List.mem_cons, not_or] at h
  obtain ⟨hlsb, husb, ham, hcw, hnfm, hcwr, -⟩ := h
  simp [toInternal, hlsb, husb, ham, hcw, hnfm, hcwr]

/-! The two directions undo each other (R203). -/

theorem toProtocol_of_toInternal {cfg : Config} {c : Byte} {d : Bool} {m : InternalMode}
    (h : toInternal cfg c d = some m) :
    toProtocol cfg m = (c, if c = codeLsb ∨ c = cfg.modeUsb then d else false) := by
  unfold toInternal at h
  split at h
  · next hlsb => cases h; cases d <;> simp [toProtocol, hlsb]
  · next hlsb =>
    split at h
    · next husb => cases h; cases d <;> simp [toProtocol, husb]
    · next husb =>
      rw [if_neg (not_or.2 ⟨hlsb, husb⟩)]
      split_ifs at h with ham hcw hnfm hcwr <;> cases h
      · rw [ham]; rfl
      · rw [hcw]; rfl
      · rw [hnfm]; rfl
      · rw [hcwr]; rfl

theorem toInternal_toProtocol {cfg : Config} (h : (modeCodes cfg).Nodup) {m : InternalMode}
    (hm : ∀ n, m ≠ .other n) : toInternal cfg (toProtocol cfg m).1 (toProtocol cfg m).2 = some m := by
  obtain ⟨husb, ham, hcw, hnfm, hcwr⟩ := toInternal_modeCode h (toProtocol cfg m).2
  cases m with
  | lsb | lsbDig => exact toInternal_codeLsb cfg _
  | usb | usbDig => exact husb
  | am => exact ham
  | cw => exact hcw
  | nfm => exact hnfm
  | cwr => exact hcwr
  | other n => exact absurd rfl (hm n)

/-! The VFO codes (R204). -/

@[simp] theorem vfoOf_vfoA (cfg : Config) : vfoOf cfg cfg.vfoA = some .a := if_pos rfl

theorem vfoOf_vfoB {cfg : Config} (h : cfg.vfoA ≠ cfg.vfoB) : vfoOf cfg cfg.vfoB = some .b := by
  rw [vfoOf, if_neg h.symm, if_pos rfl]

theorem vfoOf_of_ne {cfg : Config} {b : Byte} (ha : b ≠ cfg.vfoA) (hb : b ≠ cfg.vfoB) : vfoOf cfg b = none := by
  rw [vfoOf, if_neg ha, if_neg hb]

theorem vfoOf_vfoByte {cfg : Config} (h : cfg.vfoA ≠ cfg.vfoB) (v : Vfo) : vfoOf cfg (vfoByte cfg v) = some v := by
  cases v with
  | a => exact vfoOf_vfoA cfg
  | b => exact vfoOf_vfoB h

theorem vfoByte_of_vfoOf {cfg : Config} {b : Byte} {v : Vfo} (h : vfoOf cfg b = some v) : vfoByte cfg v = b := by
  unfold vfoOf at h
  split at h
  · next ha => cases h; exact ha.symm
  · split at h
    · next hb => cases h; exact hb.symm
    · cases h

/-! The obligations. -/

/-- Settles O29: the rows of `toProtocol` hold by definition; those of `toInternal`, and that it undoes `toProtocol`, need the
distinct mode codes of a well-formed configuration. -/
theorem modeTranslatorsAreInverse : Obligations.ModeTranslatorsAreInverse := by
  intro cfg hwf
  obtain ⟨-, -, -, hcodes, -⟩ := Config.wf_iff.1 hwf
  refine ⟨fun m hm => toInternal_toProtocol hcodes hm, fun c d m h => toProtocol_of_toInternal h,
    rfl, rfl, rfl, rfl, rfl, rfl, rfl, rfl, fun n => rfl, fun d => ⟨?_, ?_⟩, fun c d h => ?_⟩
  · exact toInternal_codeLsb cfg d
  · exact toInternal_modeCode hcodes d
  · exact toInternal_of_not_mem h d

/-- Settles O52: each VFO's byte and each byte's VFO by the rules above; the codes are those of the configuration. -/
theorem vfoTranslatorsAreInverse : Obligations.VfoTranslatorsAreInverse := by
  intro cfg hne
  refine ⟨fun v => vfoOf_vfoByte hne v, fun b v h => vfoByte_of_vfoOf h, rfl, rfl, fun b ha hb => vfoOf_of_ne ha hb, ?_⟩
  exact ⟨rfl, rfl, rfl, rfl, rfl, rfl⟩

end Sys2Proof.Machine

/-! PROOF. The read-only commands (45_read_commands.md R220 to R226). The layer first: a data answer after a handler's events
is one state, so each of the six commands has one equation for its whole meaning, with the response as the frame of its
handler's CMD and SUB. The obligations are these equations with that frame written out in bytes, or their shape. -/

namespace Sys2Proof.Machine

/-- A handler that chooses a data answer: its events and inputs, and then the response (R120, R130, R132). -/
theorem conclude_answer {s u : State} {e : Env} {es : List Event} (hc : u.cfg = s.cfg) (he : u.env = e)
    (ht : u.trace = s.trace ++ es) (src : Byte) (head payload : List Byte) :
    conclude src head (.answer payload, u) = .next (s.after e es (answerFrame src head payload)) :=
  congrArg Host.Outcome.next (State.answerWith_after hc he ht src head payload)

/-! One equation per command. -/

section
variable (s : State) (dst src : Byte) (w : VfoSel)

/-- R220. -/
theorem exec_rdFreq : exec (.rdFreq dst src) s
    = .next (s.after s.env.tookFreq [.qry (.freqOf .selected) (.freq s.nextFreq)]
        (answerFrame src (Handler.rdFreq.head s.cfg) (encodeLowFirst s.nextFreq 10))) :=
  conclude_answerFreq .selected s src _

/-- R222. -/
theorem exec_selFreqQ : exec (.selFreqQ dst src w) s
    = .next (s.after s.env.tookFreq [.qry (.freqOf w) (.freq s.nextFreq)]
        (answerFrame src ((Handler.selFreq w).head s.cfg) (encodeLowFirst s.nextFreq 10))) :=
  conclude_answerFreq w s src _

/-- R221: the data flag is not sent. -/
theorem exec_rdMode : exec (.rdMode dst src) s
    = .next (s.after s.env.tookMode [.qry (.modeOf .selected) (.mode s.nextMode)]
        (answerFrame src (Handler.rdMode.head s.cfg) [(toProtocol s.cfg s.nextMode).1, s.cfg.filterCode])) :=
  conclude_answer (State.queryMode_cfg s _) (State.queryMode_env s _) (State.queryMode_trace s _) src _ _

/-- R223: the data flag is sent. -/
theorem exec_selModeQ : exec (.selModeQ dst src w) s
    = .next (s.after s.env.tookMode [.qry (.modeOf w) (.mode s.nextMode)]
        (answerFrame src ((Handler.selMode w).head s.cfg)
          [(toProtocol s.cfg s.nextMode).1, dataByte (toProtocol s.cfg s.nextMode).2, s.cfg.filterCode])) :=
  conclude_answer (State.queryMode_cfg s _) (State.queryMode_env s _) (State.queryMode_trace s _) src _ _

/-- R224. -/
theorem exec_memWidthQ : exec (.memWidthQ dst src) s
    = .next (s.after s.env.tookWidth [.qry .width (.width s.nextWidth)]
        (answerFrame src (Handler.memWidth.head s.cfg) (encodeHighFirst s.nextWidth s.cfg.widthDigits))) :=
  conclude_answer (State.queryWidth_cfg s) (State.queryWidth_env s) (State.queryWidth_trace s) src _ _

/-- R225: no query, so no event before the response. -/
theorem exec_rdTrxid : exec (.rdTrxid dst src) s
    = .next (s.after s.env [] (answerFrame src (Handler.trxid.head s.cfg) [deviceAddr])) :=
  conclude_answer rfl rfl (List.append_nil s.trace).symm src _ _

end

/-! The selector's byte and the length of a frequency (R77, R154). -/

theorem selSub_eq_ite (cfg : Config) (w : VfoSel) :
    selSub cfg w = if w = .selected then cfg.subSelSelected else cfg.subSelUnselected := by
  cases w <;> rfl

theorem length_encodeLowFirst (v n : Nat) : (encodeLowFirst v n).length = n / 2 := by
  simp [encodeLowFirst]

/-! The obligations. -/

/-- Settles O30: `exec_rdFreq` and `exec_selFreqQ`, with the header, CMD and the selector's byte written out. -/
theorem frequencyQueriesAnswer : Obligations.FrequencyQueriesAnswer := by
  intro s dst src w
  refine ⟨exec_rdFreq s dst src, ?_⟩
  rw [← selSub_eq_ite]
  exact exec_selFreqQ s dst src w

/-- Settles O31: `exec_rdMode` and `exec_selModeQ`, with the header, CMD and the selector's byte written out. -/
theorem modeQueriesAnswer : Obligations.ModeQueriesAnswer := by
  intro s dst src w
  refine ⟨exec_rdMode s dst src, ?_⟩
  rw [← selSub_eq_ite]
  exact exec_selModeQ s dst src w

/-- Settles O32: `exec_memWidthQ` and `exec_rdTrxid`, with the header, CMD and SUB written out. -/
theorem widthAndIdQueriesAnswer : Obligations.WidthAndIdQueriesAnswer :=
  fun s dst src => ⟨exec_memWidthQ s dst src, exec_rdTrxid s dst src⟩

/-- Settles O47: each command's equation shows at most one query before its answer; only the two encoders' payloads have a
length to compute. -/
theorem readOnlyCommandsOnlyAnswer : Obligations.ReadOnlyCommandsOnlyAnswer := by
  intro s dst src w i hi
  have hfreq : some 5 = some (encodeLowFirst s.nextFreq 10).length := congrArg some (length_encodeLowFirst _ 10).symm
  have hwidth : some ((s.cfg.widthDigits + 1) / 2) = some (encodeHighFirst s.nextWidth s.cfg.widthDigits).length :=
    congrArg some (length_encodeHighFirst _ _).symm
  simp only [List.mem_cons, List.not_mem_nil, or_false] at hi
  rcases hi with rfl | rfl | rfl | rfl | rfl | rfl
  · exact ⟨_, _, _, exec_rdFreq s dst src, hfreq, .inr ⟨_, _, rfl⟩⟩
  · exact ⟨_, _, _, exec_rdMode s dst src, rfl, .inr ⟨_, _, rfl⟩⟩
  · exact ⟨_, _, _, exec_selFreqQ s dst src w, hfreq, .inr ⟨_, _, rfl⟩⟩
  · exact ⟨_, _, _, exec_selModeQ s dst src w, rfl, .inr ⟨_, _, rfl⟩⟩
  · exact ⟨_, _, _, exec_memWidthQ s dst src, hwidth, .inr ⟨_, _, rfl⟩⟩
  · exact ⟨_, _, _, exec_rdTrxid s dst src, rfl, .inl rfl⟩

end Sys2Proof.Machine

/-! PROOF. The state-mutating commands (46_mutating_commands.md R240 to R247), and which instructions have an effect beyond
asking and answering (R240, R260, R275, R226). The layer first: the operand checks as equations, one equation per command and
outcome, and the one kind of side effect that each instruction may have. -/

namespace Sys2Proof.Machine

/-! The operands (R155, R204, R245). -/

/-- At the default FREQ_BITS the reduction of log 6 takes nothing away. -/
theorem operandFreq10_of_freqBits {cfg : Config} (h : cfg.freqBits = 64) (f0 f1 f2 f3 f4 : Byte) :
    operandFreq10 cfg f0 f1 f2 f3 f4 = decodeLowFirst [f0, f1, f2, f3, f4] 10 := by
  obtain ⟨-, -, -, hfreq, -⟩ := bcdDecoderRange 10 [f0, f1, f2, f3, f4] rfl rfl
  rw [operandFreq10, h, Nat.mod_eq_of_lt (hfreq rfl).2]

theorem vfoOf_eq_some_iff {cfg : Config} {b : Byte} {v : Vfo} :
    vfoOf cfg b = some v ↔ (b = cfg.vfoA ∧ v = .a) ∨ (b ≠ cfg.vfoA ∧ b = cfg.vfoB ∧ v = .b) := by
  unfold vfoOf
  split_ifs with ha hb <;> simp [ha, eq_comm] <;> simp [hb]

/-- The two data bytes, and no other byte, have a meaning (R245, D33). -/
theorem operandData8_eq_some_iff {dd : Byte} {d : Bool} : operandData8 dd = some d ↔ dd = dataByte d := by
  unfold operandData8
  split_ifs with h0 h1
  · cases d <;> simp [h0, dataByte]
  · cases d <;> simp [h1, dataByte]
  · cases d <;> simp [h0, h1, dataByte]

theorem dataByte_eq_one (d : Bool) : decide (dataByte d = 0x01#8) = d := by
  cases d <;> rfl

/-- The mode that SEL_MODE_S is to set: the data byte, then the mode code with it (R247). -/
theorem dataMode_eq_some {cfg : Config} {mm dd : Byte} {d : Bool} {m : InternalMode} (hd : dd = dataByte d)
    (hm : toInternal cfg mm d = some m) :
    (operandData8 dd).bind (fun d => operandMode8 cfg mm d) = some m := by
  rw [operandData8_eq_some_iff.2 hd]
  exact hm

/-- SEL_MODE_S names no mode: the data byte has no meaning, or the mode code has none with it (R245, R247). -/
theorem dataMode_eq_none {cfg : Config} {mm dd : Byte}
    (h : (dd ≠ 0x00#8 ∧ dd ≠ 0x01#8) ∨ toInternal cfg mm (decide (dd = 0x01#8)) = none) :
    (operandData8 dd).bind (fun d => operandMode8 cfg mm d) = none := by
  rw [Option.bind_eq_none_iff]
  intro d hd
  obtain rfl := operandData8_eq_some_iff.1 hd
  rw [dataByte_eq_one] at h
  rcases h with ⟨h0, h1⟩ | hmode
  · cases d
    · exact absurd rfl h0
    · exact absurd rfl h1
  · exact hmode

/-! One equation per command and outcome (R240). -/

section
variable (s : State) (dst src : Byte)

/-- R242. -/
theorem exec_setFreq (f0 f1 f2 f3 f4 : Byte) : exec (.setFreq dst src f0 f1 f2 f3 f4) s
    = .next (s.after s.env.tookFreq
        (.qry (.freqOf .selected) (.freq s.nextFreq) ::
          if operandFreq10 s.cfg f0 f1 f2 f3 f4 = s.nextFreq then []
          else [.mut (.setFreq .selected (operandFreq10 s.cfg f0 f1 f2 f3 f4))])
        (ackFrame src)) :=
  conclude_changeFreq .selected _ s src _

/-- R246. -/
theorem exec_selFreqS (w : VfoSel) (f0 f1 f2 f3 f4 : Byte) : exec (.selFreqS dst src w f0 f1 f2 f3 f4) s
    = .next (s.after s.env.tookFreq
        (.qry (.freqOf w) (.freq s.nextFreq) ::
          if operandFreq10 s.cfg f0 f1 f2 f3 f4 = s.nextFreq then []
          else [.mut (.setFreq w (operandFreq10 s.cfg f0 f1 f2 f3 f4))])
        (ackFrame src)) :=
  conclude_changeFreq w _ s src _

/-- R243: the filter byte is ignored. -/
theorem exec_setModeFil (mm ff : Byte) : exec (.setModeFil dst src mm ff) s = exec (.setMode dst src mm) s := rfl

variable {s}

/-- A byte that names a VFO (R244). -/
theorem exec_setVfo_of_some {vv : Byte} {v : Vfo} (h : vfoOf s.cfg vv = some v) : exec (.setVfo dst src vv) s
    = .next (s.after s.env.tookVfo
        (.qry .activeVfo (.vfo s.nextVfo) :: if v = s.nextVfo then [] else [.mut (.selectVfo v)])
        (ackFrame src)) := by
  change conclude src (Handler.setVfo.head s.cfg) (changeVfo (vfoOf s.cfg vv) s) = _
  rw [h]
  exact conclude_changeVfo (some v) s src _

/-- A byte that names no VFO (R244). -/
theorem exec_setVfo_of_none {vv : Byte} (h : vfoOf s.cfg vv = none) : exec (.setVfo dst src vv) s
    = .next (s.after s.env [.log (.nak .badValue)] (nakFrame s.cfg src)) := by
  change conclude src (Handler.setVfo.head s.cfg) (changeVfo (vfoOf s.cfg vv) s) = _
  rw [h]
  exact conclude_changeVfo none s src _

variable {mm dd ff : Byte} {w : VfoSel}

/-- The data byte and the mode code have a meaning (R247). -/
theorem exec_selModeS_of_some {m : InternalMode}
    (h : (operandData8 dd).bind (fun d => operandMode8 s.cfg mm d) = some m) : exec (.selModeS dst src w mm dd ff) s
    = .next (s.after s.env.tookMode
        (.qry (.modeOf w) (.mode s.nextMode) :: if m = s.nextMode then [] else [.mut (.setMode w m)])
        (ackFrame src)) := by
  change conclude src ((Handler.selMode w).head s.cfg) (changeMode w (Option.bind _ _) s) = _
  rw [h]
  exact conclude_changeMode w (some m) s src _

/-- The data byte or the mode code has no meaning (R247). -/
theorem exec_selModeS_of_none (h : (operandData8 dd).bind (fun d => operandMode8 s.cfg mm d) = none) :
    exec (.selModeS dst src w mm dd ff) s
      = .next (s.after s.env [.log (.nak .badValue)] (nakFrame s.cfg src)) := by
  change conclude src ((Handler.selMode w).head s.cfg) (changeMode w (Option.bind _ _) s) = _
  rw [h]
  exact conclude_changeMode w none s src _

end

/-! Mutations and control calls in a piece of trace (R32, R33). -/

@[simp] theorem submittedIn_nil : submittedIn [] = [] := rfl
@[simp] theorem submittedIn_cons (e : Event) (es : List Event) : submittedIn (e :: es) = e.submitted ++ submittedIn es := rfl
@[simp] theorem calledIn_nil : calledIn [] = [] := rfl
@[simp] theorem calledIn_cons (e : Event) (es : List Event) : calledIn (e :: es) = e.called ++ calledIn es := rfl

/-- What is sent adds no mutation. -/
@[simp] theorem submittedIn_append_tx (es : List Event) (bs : List Byte) :
    submittedIn (es ++ bs.map Event.tx) = submittedIn es := by
  simp [submittedIn, List.flatMap_map, Event.submitted]

/-- What is sent adds no control call. -/
@[simp] theorem calledIn_append_tx (es : List Event) (bs : List Byte) : calledIn (es ++ bs.map Event.tx) = calledIn es := by
  simp [calledIn, List.flatMap_map, Event.called]

/-- The one kind of side effect an instruction may have. -/
inductive SideEffect where
  | none
  | mutation
  | call

/-- The events that an instruction with this kind of side effect may make: at most one of the kind, and none of the other. -/
def SideEffect.Admits : SideEffect → List Event → Prop
  | .none, es => submittedIn es = [] ∧ calledIn es = []
  | .mutation, es => (submittedIn es).length ≤ 1 ∧ calledIn es = []
  | .call, es => submittedIn es = [] ∧ (calledIn es).length ≤ 1

section
variable {k : SideEffect} {es : List Event}

theorem SideEffect.Admits.total_le_one (h : k.Admits es) : (submittedIn es).length + (calledIn es).length ≤ 1 := by
  cases k <;> obtain ⟨hsub, hcall⟩ := h <;> simp [hsub, hcall]

theorem SideEffect.Admits.eq_mutation (h : k.Admits es) (hne : submittedIn es ≠ []) : k = .mutation := by
  cases k with
  | mutation => rfl
  | none | call => exact absurd h.1 hne

theorem SideEffect.Admits.eq_call (h : k.Admits es) (hne : calledIn es ≠ []) : k = .call := by
  cases k with
  | call => rfl
  | none | mutation => exact absurd h.2 hne

theorem SideEffect.Admits.append_tx (h : k.Admits es) (bs : List Byte) : k.Admits (es ++ bs.map Event.tx) := by
  cases k <;> simpa [SideEffect.Admits] using h

/-- Events that neither submit nor call are admitted by every kind. -/
theorem SideEffect.admits_of_nil (hsub : submittedIn es = []) (hcall : calledIn es = []) : k.Admits es := by
  cases k <;> simp [SideEffect.Admits, hsub, hcall]

theorem SideEffect.admits_query (k : SideEffect) (q : QueryItem) (a : Answer) : k.Admits [.qry q a] :=
  admits_of_nil rfl rfl

theorem SideEffect.admits_log (k : SideEffect) (r : LogReason) : k.Admits [.log r] :=
  admits_of_nil rfl rfl

/-- Compare-then-submit (R240). -/
theorem SideEffect.admits_submitUnless (p : Prop) [Decidable p] (q : QueryItem) (a : Answer) (m : Mutation) :
    SideEffect.mutation.Admits (.qry q a :: if p then [] else [.mut m]) := by
  split
  · exact SideEffect.admits_query _ q a
  · exact ⟨Nat.le_refl 1, rfl⟩

/-- One control call, beside events that neither submit nor call (R260, R275). -/
theorem SideEffect.admits_call (hsub : submittedIn es = []) {c : ControlCall} (hcall : calledIn es = [c]) :
    SideEffect.call.Admits es :=
  ⟨hsub, by simp [hcall]⟩

end

/-! The side effect of each family of handlers, from what `conclude` makes of it. -/

/-- The next state comes from `s` by events that `k` admits. -/
def SideEffect.Makes (k : SideEffect) (s : State) (r : Result) : Prop :=
  ∃ t es, r = .next t ∧ t.trace = s.trace ++ es ∧ k.Admits es

theorem SideEffect.Makes.after {k : SideEffect} {s : State} {es : List Event} (h : k.Admits es) (e : Env) (bs : List Byte) :
    k.Makes s (.next (s.after e es bs)) :=
  ⟨_, _, rfl, by rw [State.after_trace, List.append_assoc], h.append_tx bs⟩

/-- A level handler that faults has asked and nothing else (R172, R306). -/
theorem SideEffect.Makes.raiseFault (k : SideEffect) (s : State) (f : LevelField) (v : Int) :
    k.Makes s (.next ((s.queryLevel f).2.raiseFault f v)) :=
  ⟨_, _, rfl, State.queryLevel_trace s f, k.admits_query _ _⟩

section
variable (s : State) (src : Byte) (head : List Byte)

theorem changeFreq_makes (w : VfoSel) (hz : Nat) :
    SideEffect.mutation.Makes s (conclude src head (changeFreq w hz s)) := by
  rw [conclude_changeFreq]
  exact .after (SideEffect.admits_submitUnless _ _ _ _) _ _

theorem changeMode_makes (w : VfoSel) (m : Option InternalMode) :
    SideEffect.mutation.Makes s (conclude src head (changeMode w m s)) := by
  rw [conclude_changeMode]
  cases m with
  | none => exact .after (SideEffect.admits_log _ _) _ _
  | some m => exact .after (SideEffect.admits_submitUnless _ _ _ _) _ _

theorem changeVfo_makes (v : Option Vfo) : SideEffect.mutation.Makes s (conclude src head (changeVfo v s)) := by
  rw [conclude_changeVfo]
  cases v with
  | none => exact .after (SideEffect.admits_log _ _) _ _
  | some v => exact .after (SideEffect.admits_submitUnless _ _ _ _) _ _

theorem readLevel_makes (f : LevelField) : SideEffect.none.Makes s (conclude src head (readLevel f s)) := by
  rw [conclude_readLevel]
  split
  · exact .after (SideEffect.admits_query _ _ _) _ _
  · exact .raiseFault _ s f _

theorem changeLevel_makes (f : LevelField) (n : Nat) :
    SideEffect.call.Makes s (conclude src head (changeLevel f n s)) := by
  rw [conclude_changeLevel]
  split
  · exact .after (SideEffect.admits_call rfl rfl) _ _
  · exact .raiseFault _ s f _

theorem readToggle_makes (t : Toggle) : SideEffect.none.Makes s (conclude src head (readToggle t s)) := by
  rw [conclude_readToggle]
  exact .after (SideEffect.admits_query _ _ _) _ _

theorem changeToggle_makes (t : Toggle) (b : Byte) :
    SideEffect.call.Makes s (conclude src head (changeToggle t b s)) := by
  rw [conclude_changeToggle]
  exact .after (SideEffect.admits_call rfl rfl) _ _

end

/-! The side effect of each instruction. -/

/-- The side effect of a handler's set form: a state-mutating command submits, a level or a toggle calls (R240, R260, R275). -/
def handlerEffect : Handler → SideEffect
  | .rdFreq | .rdMode | .trxid | .memWidth => .none
  | .setFreq | .setMode | .setVfo | .selFreq _ | .selMode _ => .mutation
  | .level _ | .toggle _ => .call

/-- A query form has no side effect (R226, R260, R275). -/
def instrEffect (i : Instr) : SideEffect :=
  if i.payload = [] then .none else handlerEffect i.handler

theorem handlerEffect_eq_mutation {h : Handler} (heffect : handlerEffect h = .mutation) :
    h = .setFreq ∨ h = .setMode ∨ h = .setVfo ∨ (∃ w, h = .selFreq w) ∨ ∃ w, h = .selMode w := by
  cases h with
  | setFreq | setMode | setVfo | selFreq | selMode => simp
  | rdFreq | rdMode | trxid | memWidth | level | toggle => cases heffect

theorem handlerEffect_eq_call {h : Handler} (heffect : handlerEffect h = .call) :
    (∃ f, h = .level f) ∨ ∃ g, h = .toggle g := by
  cases h with
  | level | toggle => simp
  | rdFreq | rdMode | trxid | memWidth | setFreq | setMode | setVfo | selFreq | selMode => cases heffect

/-- An instruction with a side effect is a set form, and the effect is its handler's. -/
theorem instrEffect_of_ne_none {i : Instr} {k : SideEffect} (h : instrEffect i = k) (hk : k ≠ .none) :
    i.payload ≠ [] ∧ handlerEffect i.handler = k := by
  unfold instrEffect at h
  split at h
  · next => exact absurd h.symm hk
  · next hset => exact ⟨hset, h⟩

/-- All 44 instructions, by family. -/
theorem exec_makes (i : Instr) (s : State) : (instrEffect i).Makes s (exec i s) := by
  cases i
  case rdFreq => rw [exec_rdFreq]; exact .after (SideEffect.admits_query _ _ _) _ _
  case rdMode => rw [exec_rdMode]; exact .after (SideEffect.admits_query _ _ _) _ _
  case selFreqQ => rw [exec_selFreqQ]; exact .after (SideEffect.admits_query _ _ _) _ _
  case selModeQ => rw [exec_selModeQ]; exact .after (SideEffect.admits_query _ _ _) _ _
  case memWidthQ => rw [exec_memWidthQ]; exact .after (SideEffect.admits_query _ _ _) _ _
  case rdTrxid => rw [exec_rdTrxid]; exact .after (SideEffect.admits_of_nil rfl rfl) _ _
  case setFreq | selFreqS => exact changeFreq_makes s _ _ _ _
  case setMode | setModeFil | selModeS => exact changeMode_makes s _ _ _ _
  case setVfo => exact changeVfo_makes s _ _ _
  case lvlAfQ | lvlRfQ | lvlSqlQ | lvlNrQ | lvlNbQ | lvlPwrQ | lvlDnfQ => exact readLevel_makes s _ _ _
  case lvlAfS | lvlRfS | lvlSqlS | lvlNrS | lvlNbS | lvlPwrS | lvlDnfS => exact changeLevel_makes s _ _ _ _
  case spltQ | attQ | funcPreampQ | funcAgcQ | funcNbQ | funcNrQ | funcDnfQ | pttQ | atuQ =>
    exact readToggle_makes s _ _ _
  case spltS | attS | funcPreampS | funcAgcS | funcNbS | funcNrS | funcDnfS | pttS | atuS =>
    exact changeToggle_makes s _ _ _ _

/-! The obligations. -/

/-- Settles O48: the events between the two traces are those of `exec_makes`, so the instruction's one kind of side effect
admits them. -/
theorem sideEffectsByFamily : Obligations.SideEffectsByFamily := by
  intro i s t es hexec htrace
  obtain ⟨u, fs, hu, hfs, hadmits⟩ := exec_makes i s
  obtain rfl : t = u := Host.Outcome.next.inj (hexec.symm.trans hu)
  obtain rfl : es = fs := List.append_cancel_left (htrace.symm.trans hfs)
  refine ⟨hadmits.total_le_one, fun hsub => ?_, fun hcall => ?_⟩
  · obtain ⟨hset, hhandler⟩ := instrEffect_of_ne_none (hadmits.eq_mutation hsub) (by simp)
    exact ⟨hset, handlerEffect_eq_mutation hhandler⟩
  · obtain ⟨hset, hhandler⟩ := instrEffect_of_ne_none (hadmits.eq_call hcall) (by simp)
    exact ⟨hset, handlerEffect_eq_call hhandler⟩

/-- Settles O33: `exec_setFreq` and `exec_selFreqS`, with the frames written out. -/
theorem frequencySetsSubmitOnlyAChange : Obligations.FrequencySetsSubmitOnlyAChange := by
  intro s dst src f0 f1 f2 f3 f4 w
  exact ⟨exec_setFreq s dst src f0 f1 f2 f3 f4, exec_selFreqS s dst src w f0 f1 f2 f3 f4,
    fun h64 => operandFreq10_of_freqBits h64 f0 f1 f2 f3 f4⟩

/-- Settles O34: compare-then-submit of the translated mode code; the form with a filter byte has the same meaning. -/
theorem modeSetsSubmitOnlyAChange : Obligations.ModeSetsSubmitOnlyAChange := by
  intro s dst src mm ff
  dsimp only
  rw [exec_setModeFil, and_self]
  exact conclude_changeMode .selected (toInternal s.cfg mm false) s src _

/-- Settles O35: the two clauses are the two outcomes of `vfoOf`. -/
theorem vfoSetSubmitsOnlyAChange : Obligations.VfoSetSubmitsOnlyAChange := by
  intro s dst src vv
  exact ⟨fun v hv => exec_setVfo_of_some dst src (vfoOf_eq_some_iff.2 hv),
    fun ha hb => exec_setVfo_of_none dst src (vfoOf_of_ne ha hb)⟩

/-- Settles O36: the two clauses are the two outcomes of the data byte and the mode code together. -/
theorem selectedModeSetSubmitsOnlyAChange : Obligations.SelectedModeSetSubmitsOnlyAChange := by
  intro s dst src mm dd ff w
  exact ⟨fun d m hd hm => exec_selModeS_of_some dst src (dataMode_eq_some hd hm),
    fun h => exec_selModeS_of_none dst src (dataMode_eq_none h)⟩

end Sys2Proof.Machine

/-! PROOF. The level and toggle commands (47_level_function_commands.md R260 to R293). The layer first: the query form and the
set form of a level field, and of a toggle, each have one equation for all the field's or toggle's commands, the command being
the form that the decoder gives the handler (R80). The obligations are these equations with the scaler's formula at the field's
range (R174, R176 to R180) and the head of the handler (R76, R77) written out. -/

namespace Sys2Proof.Machine

/-! One equation per form (R260, R275). -/

section
variable {s : State} {dst src : Byte} {f : LevelField} {t : Toggle} {i : Instr}

/-- R261, R263, R265, R267, R269, R271, R273: a level query whose answer is in range. -/
theorem exec_levelQuery (hi : (Handler.level f).queryForm dst src = some i) (hin : levelInRange f s.nextLevel = true) :
    exec i s = .next (s.after s.env.tookLevel [.qry (.level f) (.level s.nextLevel)]
      (answerFrame src ((Handler.level f).head s.cfg)
        (encodeHighFirst (scaleQuery s.cfg.roundTies f s.nextLevel).toNat 4))) := by
  have hconclude := conclude_readLevel f s src ((Handler.level f).head s.cfg)
  rw [if_pos hin] at hconclude
  cases f <;> cases hi <;> exact hconclude

/-- R262, R264, R266, R268, R270, R272, R274: a level set whose answer is in range. -/
theorem exec_levelSet {h l : Byte} (hi : (Handler.level f).setForm dst src [h, l] = some i)
    (hin : levelInRange f s.nextLevel = true) :
    exec i s = .next (s.after s.env.tookLevel
      [.qry (.level f) (.level s.nextLevel),
        .ctl (.applyDelta f (scaleSet s.cfg.divRounding f (operandLvl4 h l) s.nextLevel))]
      (ackFrame src)) := by
  have hconclude := conclude_changeLevel f (operandLvl4 h l) s src ((Handler.level f).head s.cfg)
  rw [if_pos hin] at hconclude
  cases f <;> cases hi <;> exact hconclude

/-- R276, R278, R280, R282, R284, R286, R288, R290, R292. -/
theorem exec_toggleQuery (hi : (Handler.toggle t).queryForm dst src = some i) :
    exec i s = .next (s.after s.env.tookToggle [.qry (.toggleState t) (.toggle s.nextToggle)]
      (answerFrame src ((Handler.toggle t).head s.cfg) [s.nextToggle])) := by
  have hconclude := conclude_readToggle t s src ((Handler.toggle t).head s.cfg)
  cases t <;> cases hi <;> exact hconclude

/-- R277, R279, R281, R283, R285, R287, R289, R291, R293. -/
theorem exec_toggleSet {b : Byte} (hi : (Handler.toggle t).setForm dst src [b] = some i) :
    exec i s = .next (s.after s.env [.ctl (.setToggle t b), .notify] (ackFrame src)) := by
  have hconclude := conclude_changeToggle t b s src ((Handler.toggle t).head s.cfg)
  cases t <;> cases hi <;> exact hconclude

end

/-! The scaler's formulas, written out (R9, R174, R176 to R180), and the response with its END last. -/

theorem scaleQuery_halfUp (f : LevelField) (cur : Int) :
    scaleQuery .halfUp f cur
      = (2 * ((cur - levelMin f) * 255) + (levelMax f - levelMin f)) / (2 * (levelMax f - levelMin f)) := by
  rw [scaleQuery_eq, roundQ]

theorem ceilDiv_wireScale (a : Int) : ceilDiv a 255 = (a + 254) / 255 := by
  rw [ceilDiv, Int.add_sub_assoc]
  rfl

theorem roundUp_dnfStep (x : Int) : roundUp x 50 = (x + 49) / 50 * 50 := by
  rw [roundUp, ceilDiv, Int.add_sub_assoc]
  rfl

theorem answerFrame_eq (src : Byte) (head payload : List Byte) :
    answerFrame src head payload = [0xFE#8, 0xFE#8, src, 0xA4#8] ++ head ++ (payload ++ [0xFD#8]) :=
  List.append_assoc _ _ _

/-! The obligations. -/

/-- Settles O37: `exec_levelQuery` for each field, the ends of its range being those in the formula. -/
theorem levelQueriesAnswer : Obligations.LevelQueriesAnswer := by
  intro s dst src cur hcur hties done
  subst hcur
  have hquery (f : LevelField) {i : Instr} (hi : (Handler.level f).queryForm dst src = some i)
      (hmin : levelMin f ≤ s.nextLevel) (hmax : s.nextLevel ≤ levelMax f) :
      exec i s = .next (done f (levelSub s.cfg f) (levelMin f) (levelMax f)) := by
    rw [exec_levelQuery hi (levelInRange_iff.2 ⟨hmin, hmax⟩), hties, scaleQuery_halfUp]
    rfl
  exact ⟨hquery .af rfl, hquery .rf rfl, hquery .sql rfl, hquery .nr rfl, hquery .nb rfl, hquery .pwr rfl,
    hquery .dnf rfl⟩

/-- Settles O38: `exec_levelSet` for each field, with the field's own delta. -/
theorem levelSetsApplyOneDelta : Obligations.LevelSetsApplyOneDelta := by
  intro s dst src h l cur hcur htrunc n done
  subst hcur
  have hset (f : LevelField) {i : Instr} {arg : Int} (hi : (Handler.level f).setForm dst src [h, l] = some i)
      (harg : scaleSet .trunc f n s.nextLevel = arg)
      (hmin : levelMin f ≤ s.nextLevel) (hmax : s.nextLevel ≤ levelMax f) : exec i s = .next (done f arg) := by
    rw [exec_levelSet hi (levelInRange_iff.2 ⟨hmin, hmax⟩), htrunc, ← harg]
    rfl
  refine ⟨hset .af rfl ?_, hset .rf rfl ?_, hset .sql rfl ?_, hset .nr rfl ?_, hset .nb rfl ?_, hset .pwr rfl ?_,
    hset .dnf rfl ?_⟩
  · rw [scaleSet_af, ceilDiv_wireScale]
  · rw [scaleSet_rf, ceilDiv_wireScale]
  · rw [scaleSet_sql, ceilDiv_wireScale]
  · rw [scaleSet_nr, ceilDiv_wireScale, divDelta]
  · rw [scaleSet_nb, ceilDiv_wireScale, divDelta]
  · rw [scaleSet_pwr, ceilDiv_wireScale]
  · rw [scaleSet_dnf, ceilDiv_wireScale, roundUp_dnfStep, divDelta]

/-- Settles O40: `exec_toggleQuery` for each toggle, with the head that its family and its sub-code give. -/
theorem toggleQueriesAnswerRaw : Obligations.ToggleQueriesAnswerRaw := by
  intro s dst src done
  have hquery (t : Toggle) {i : Instr} (hi : (Handler.toggle t).queryForm dst src = some i) :
      exec i s = .next (done t ((Handler.toggle t).head s.cfg)) := by
    rw [exec_toggleQuery hi, answerFrame_eq]
    rfl
  exact ⟨hquery .preamp rfl, hquery .agc rfl, hquery .nbOn rfl, hquery .nrOn rfl, hquery .dnfOn rfl, hquery .ptt rfl,
    hquery .atu rfl, hquery .att rfl, hquery .split rfl⟩

/-- Settles O41: `exec_toggleSet` for each toggle. -/
theorem toggleSetsCallAndNotify : Obligations.ToggleSetsCallAndNotify := by
  intro s dst src bb done
  have hset (t : Toggle) {i : Instr} (hi : (Handler.toggle t).setForm dst src [bb] = some i) :
      exec i s = .next (done t) := exec_toggleSet hi
  exact ⟨hset .preamp rfl, hset .agc rfl, hset .nbOn rfl, hset .nrOn rfl, hset .dnfOn rfl, hset .ptt rfl, hset .atu rfl,
    hset .att rfl, hset .split rfl⟩

end Sys2Proof.Machine

/-! PROOF. The endings of a request (60_exceptions.md R301 to R317): the protocol loop goes on except where a level answer is
out of its range. The layer first: `State.AtBoundary` and `LevelFault` are the two endings of a dispatch, and the reader and the
dispatcher have one outcome lemma each. R317's example is two runs from one frame boundary to the next, each as one whole
state. -/

namespace Sys2Proof.Machine

/-! The two endings of a dispatch (R301). -/

/-- A frame boundary: what `finish()` leaves (R104, R132). -/
structure State.AtBoundary (s : State) : Prop where
  phase : s.phase = .accum
  buf : s.buf = []
  len : s.len = 0

theorem State.after_atBoundary (s : State) (e : Env) (es : List Event) (r : List Byte) : (s.after e es r).AtBoundary :=
  ⟨rfl, rfl, rfl⟩

/-- `t` is where a dispatch in `s` goes when the next level answer is out of the range of `f`: FAULTED, with the request kept
(R306). -/
structure LevelFault (s : State) (f : LevelField) (t : State) : Prop where
  phase : t.phase = .faulted f s.nextLevel
  outOfRange : levelInRange f s.nextLevel = false
  buf : t.buf = s.buf
  len : t.len = s.len

theorem LevelFault.isFaulted {s t : State} {f : LevelField} (h : LevelFault s f t) : t.isFaulted = true := by
  simp [State.isFaulted, h.phase]

/-- The frame `req` is a level request of the field `f`. -/
def RequestsLevel (cfg : Config) (req : List Byte) (f : LevelField) : Prop :=
  ∃ i, decodeFrame cfg req = .ok i ∧ i.handler = .level f

/-- Every instruction's meaning ends at a frame boundary, or in the fault of a level request. -/
theorem exec_outcome (i : Instr) (s : State) :
    ∃ t, exec i s = .next t ∧ (t.AtBoundary ∨ ∃ f, i.handler = .level f ∧ LevelFault s f t) := by
  obtain ⟨r, u, hexec, hu, -, -, hfault⟩ := exec_cases i s
  refine ⟨_, hexec, ?_⟩
  cases r with
  | ack => exact .inl ⟨rfl, rfl, rfl⟩
  | nak r => exact .inl ⟨rfl, rfl, rfl⟩
  | answer payload => exact .inl ⟨rfl, rfl, rfl⟩
  | fault f v =>
    obtain ⟨hhandler, rfl, hrange⟩ := hfault f v rfl
    exact .inr ⟨f, hhandler, rfl, hrange, hu.buf, hu.len⟩

/-- A dispatch always has a next state (R317): a dropped and a rejected frame end at a boundary, a decoded one as its meaning
does. -/
theorem dispatchFrame_outcome (req : List Byte) (s : State) :
    ∃ t, dispatchFrame req s = .next t
      ∧ (t.AtBoundary ∨ ∃ f, RequestsLevel s.cfg req f ∧ LevelFault s f t) := by
  cases hdec : decodeFrame s.cfg req with
  | error e =>
    cases e with
    | framing => exact ⟨_, dispatchFrame_framing hdec, .inl ⟨rfl, rfl, rfl⟩⟩
    | nak r => exact ⟨_, dispatchFrame_nak hdec, .inl ⟨rfl, rfl, rfl⟩⟩
  | ok i =>
    obtain ⟨t, hexec, hend⟩ := exec_outcome i (s.transmit req)
    refine ⟨t, (dispatchFrame_ok hdec).trans hexec, hend.imp_right ?_⟩
    rintro ⟨f, hhandler, hfault⟩
    exact ⟨f, ⟨i, hdec, hhandler⟩, hfault.phase, hfault.outOfRange, hfault.buf, hfault.len⟩

/-! The two phases with a step, in a state that meets the invariant. -/

section
variable {s : State} (hs : s.inv = true)
include hs

theorem readerStep_outcome (hp : s.phase = .accum) :
    ∃ t, readerStep s = .next t ∧ (t.phase = .accum ∨ t.phase = .dispatch) := by
  obtain ⟨-, -, -, hph⟩ := State.inv_iff.1 hs
  obtain ⟨hl, -⟩ := (State.phaseInv_accum hp).1 hph
  cases hnext : s.rxNext.1 with
  | none => exact ⟨_, readerStep_of_none hnext, .inl hp⟩
  | some b =>
    have hreceive := State.receive_eq (s := s.rxNext.2) (b := b) hl
    refine ⟨_, (readerStep_of_byte hnext).trans hreceive, ?_⟩
    rw [State.receive_phase hreceive]
    split
    · exact .inr rfl
    · exact .inl hp

/-- The counter is inside the buffer, so there is a request to dispatch. -/
theorem State.request_of_inv (hp : s.phase = .dispatch) : ∃ req, s.request = some req := by
  obtain ⟨-, -, -, hph⟩ := State.inv_iff.1 hs
  obtain ⟨hl, -⟩ := (State.phaseInv_dispatch hp).1 hph
  exact ⟨_, State.request_eq hl⟩

end

/-! The obligations on single steps. -/

/-- Settles O45: `readerStep_outcome` and `dispatchFrame_outcome`; an empty buffer reads zero at every index. -/
theorem protocolLoopNeverStops : Obligations.ProtocolLoopNeverStops := by
  intro s hs
  have hc : s.cfg.wf = true := (State.inv_iff.1 hs).1
  refine ⟨fun hp => ?reader, fun hp => ?dispatcher⟩
  case reader =>
    rw [step_of_accum hc hp]
    exact readerStep_outcome hs hp
  case dispatcher =>
    obtain ⟨req, hreq⟩ := State.request_of_inv hs hp
    obtain ⟨t, ht, hend⟩ := dispatchFrame_outcome req s
    refine ⟨t, (step_of_request hc hp hreq).trans ht, ?_⟩
    rcases hend with hboundary | ⟨f, -, hfault⟩
    · refine .inr ⟨hboundary.phase, hboundary.len, fun i hi => ?_⟩
      rw [hboundary.buf]
      exact Memory.read_nil hi
    · exact .inl hfault.isFaulted

/-- Settles O46: only FAULTED answers a fault and only HALTED a refusal; a reader step stays in ACCUM or goes to DISPATCH, and a
dispatch step into FAULTED is a `LevelFault`. -/
theorem onlyOutOfRangeLevelsFault : Obligations.OnlyOutOfRangeLevelsFault := by
  intro s hs
  obtain ⟨hc, -, -, hph⟩ := State.inv_iff.1 hs
  cases hp : s.phase with
  | accum =>
    obtain ⟨u, hu, hphase⟩ := readerStep_outcome hs hp
    rw [step_of_accum hc hp, hu]
    refine ⟨by simp, by simp, fun t f v ht hfaulted => ?_⟩
    cases ht
    simp [hfaulted] at hphase
  | dispatch =>
    obtain ⟨req, hreq⟩ := State.request_of_inv hs hp
    obtain ⟨u, hu, hend⟩ := dispatchFrame_outcome req s
    rw [step_of_request hc hp hreq, hu]
    refine ⟨by simp, by simp, fun t f v ht hfaulted => ?_⟩
    cases ht
    rcases hend with hboundary | ⟨g, ⟨i, hdec, hhandler⟩, hfault⟩
    · cases hfaulted.symm.trans hboundary.phase
    · cases hfaulted.symm.trans hfault.phase
      exact ⟨rfl, rfl, hfault.outOfRange, hfault.buf, hfault.len, req, i, hreq, hdec, hhandler⟩
  | halted =>
    rw [step_of_wf hc, phaseStep_halted hp]
    refine ⟨by simp, fun r hr => ?_, by simp⟩
    cases hr
    exact ⟨rfl, rfl⟩
  | faulted f v =>
    obtain ⟨-, hrange⟩ := (State.phaseInv_faulted hp).1 hph
    rw [step_of_wf hc, phaseStep_faulted hp]
    refine ⟨fun r hr => ?_, by simp, by simp⟩
    cases hr
    exact ⟨f, v, rfl, rfl, hrange⟩

/-! From one frame boundary to the next (R105, R107). -/

/-- `t` is `s` with the bytes `bs` received and the request `req` waiting for its dispatch. -/
structure Delivered (s : State) (bs req : List Byte) (t : State) : Prop where
  cfg : t.cfg = s.cfg
  phase : t.phase = .dispatch
  request : t.request = some req
  trace : t.trace = s.trace ++ bs.map Event.rxByte
  env : t.env = s.env.polled bs.length

/-- A dispatch after one that sent nothing, as one state over the state before both. -/
theorem State.after_after (s : State) (e e' : Env) (es fs : List Event) (r : List Byte) :
    (s.after e es []).after e' fs r = s.after e' (es ++ fs) r :=
  State.after_of_trace (s.after_cfg e es []) ((s.after_trace e es []).trans (List.append_nil _)) e' r

/-- Polls take none of the frequency answers. -/
theorem State.nextFreq_of_polled {s t : State} {n : Nat} (hc : t.cfg = s.cfg) (he : t.env = s.env.polled n) :
    t.nextFreq = s.nextFreq := by
  simp [State.nextFreq, Env.polled, hc, he]

theorem State.nextFreq_after_polled (s : State) (n : Nat) (es : List Event) (r : List Byte) :
    (s.after (s.env.polled n) es r).nextFreq = s.nextFreq :=
  State.nextFreq_of_polled rfl rfl

/-- The request of R317's example: read the frequency, from the controller 0xE0. -/
def readFreqRequest : List Byte := [0xFE#8, 0xFE#8, 0xA4#8, 0xE0#8, 0x03#8, 0xFD#8]

theorem readFreqRequest_eq_encode (cfg : Config) : readFreqRequest = encode cfg (.rdFreq 0xA4#8 0xE0#8) := rfl

section
variable {s : State} {later : List (Option Byte)} (hs : s.AtBoundary) (hc : s.cfg.wf = true)
include hs hc

/-- Any bytes without END and then END are dispatched as what is left of them after the discards (R102, R106). -/
theorem run_delivers {bs : List Byte} (hclear : clearOfEnd bs = true)
    (hrx : s.env.rx = (bs ++ [endByte]).map some ++ later) :
    ∃ t, State.run (bs.length + 1) s = .next t
      ∧ Delivered s (bs ++ [endByte]) (bs.drop (bs.length / 256 * 256) ++ [endByte]) t := by
  have hrx' : s.env.rx = bs.map some ++ some endByte :: later := by simpa using hrx
  obtain ⟨t, hrun, ht⟩ := run_accumulates hc hs.phase hs.buf hs.len hclear hrx'
  have hnext : t.rxNext.1 = some endByte := State.rxNext_fst_of_rx (by rw [ht.env, Env.polled_rx hrx'])
  have hroom : t.len < maxFrame := ht.len ▸ Nat.mod_lt _ (by decide)
  have hstep := step_of_end (by rw [ht.cfg, hc]) ht.phase hnext hroom rfl
  refine ⟨_, State.run_snoc hrun hstep, ht.cfg, rfl, ?_, by simp [ht.trace], by simp [ht.env]⟩
  rw [State.request_eq (Nat.succ_le_of_lt hroom)]
  exact congrArg some (by rw [Memory.slice_put_succ ht.wf, ht.slice])

/-- Bytes that leave no well-framed request are recorded and dropped, back to a frame boundary (R105, R121). -/
theorem run_drops {bs : List Byte} (hclear : clearOfEnd bs = true)
    (hbad : framingBad (bs.drop (bs.length / 256 * 256) ++ [endByte]) = true)
    (hrx : s.env.rx = (bs ++ [endByte]).map some ++ later) :
    State.run (bs.length + 2) s
      = .next (s.after (s.env.polled (bs.length + 1)) ((bs ++ [endByte]).map Event.rxByte) []) := by
  obtain ⟨t, hrun, ht⟩ := run_delivers hs hc hclear hrx
  have hstep : step t = .next t.finish :=
    (step_of_request (ht.cfg ▸ hc) ht.phase ht.request).trans (dispatchFrame_framing (decodeFrame_framing.2 hbad))
  rw [State.run_snoc hrun hstep, State.finish_eq, State.after_of_trace ht.cfg ht.trace, ht.env]
  simp

/-- The request of R317's example is received, echoed and answered in seven steps (R107, R124, R220). -/
theorem run_answersReadFreq (hrx : s.env.rx = readFreqRequest.map some ++ later) :
    State.run 7 s
      = .next (s.after (s.env.polled 6).tookFreq
          (readFreqRequest.map Event.rxByte ++ readFreqRequest.map Event.tx
            ++ [.qry (.freqOf .selected) (.freq s.nextFreq)])
          (answerFrame 0xE0#8 (Handler.rdFreq.head s.cfg) (encodeLowFirst s.nextFreq 10))) := by
  obtain ⟨t, hrun, ht⟩ := run_delivers (bs := [0xFE#8, 0xFE#8, 0xA4#8, 0xE0#8, 0x03#8]) hs hc (by decide) hrx
  have hct : t.cfg.wf = true := ht.cfg ▸ hc
  have hdec : decodeFrame t.cfg readFreqRequest = .ok (.rdFreq 0xA4#8 0xE0#8) :=
    decodeFrame_of_eq_encode hct (readFreqRequest_eq_encode t.cfg) rfl
  have hstep : step t = exec (.rdFreq 0xA4#8 0xE0#8) (t.transmit readFreqRequest) :=
    (step_of_request hct ht.phase ht.request).trans (dispatchFrame_ok hdec)
  have htrace : (t.transmit readFreqRequest).trace
      = s.trace ++ (readFreqRequest.map Event.rxByte ++ readFreqRequest.map Event.tx) := by
    rw [State.transmit_trace, ht.trace, List.append_assoc]
    rfl
  have hfreq : (t.transmit readFreqRequest).nextFreq = s.nextFreq := State.nextFreq_of_polled ht.cfg ht.env
  have hcfg : (t.transmit readFreqRequest).cfg = s.cfg := ht.cfg
  rw [exec_rdFreq, hfreq, hcfg, State.after_of_trace hcfg htrace, State.transmit_env, ht.env] at hstep
  exact State.run_snoc hrun hstep

end

/-! The obligation on a run. -/

/-- Settles O10: the garbage is dropped (`run_drops`), and from the boundary it leaves the request is answered
(`run_answersReadFreq`). -/
theorem garbageThenEndThenRequestIsAnswered : Obligations.GarbageThenEndThenRequestIsAnswered := by
  intro s g later hc hp hb hl hclear hbad hrx
  rw [List.append_assoc] at hrx
  have hdrop := run_drops ⟨hp, hb, hl⟩ hc hclear hbad hrx
  have hpolls : (g ++ [0xFD#8]).length = g.length + 1 := List.length_append
  have hleft : (s.env.polled (g.length + 1)).rx = readFreqRequest.map some ++ later := hpolls ▸ Env.polled_rx hrx
  have hboundary := s.after_atBoundary (s.env.polled (g.length + 1)) ((g ++ [endByte]).map Event.rxByte) []
  have hanswer := run_answersReadFreq hboundary hc hleft
  rw [State.after_after, State.after_cfg, State.after_env, Env.polled_polled, State.nextFreq_after_polled] at hanswer
  rw [← List.append_assoc, ← List.append_assoc, ← List.map_append, List.append_assoc g] at hanswer
  exact (State.run_add 7 hdrop).trans hanswer

end Sys2Proof.Machine

/-! PROOF. Reset and hazards (70_reset_and_hazards.md): the end of a run (R351), which is a state of the reader. -/

namespace Sys2Proof.Machine

theorem Env.noByteLeft_iff {e : Env} : e.noByteLeft = true ↔ ∀ b, some b ∉ e.rx := by
  simp only [Env.noByteLeft, List.all_eq_true, beq_iff_eq]
  constructor
  · intro h b hb
    cases h _ hb
  · intro h r hr
    cases r with
    | none => rfl
    | some b => exact absurd hr (h b)

theorem State.runEnded_iff {s : State} :
    s.runEnded = true ↔ s.phase = .accum ∧ s.rxNext.1 = none ∧ ∀ b, some b ∉ s.env.rx := by
  simp only [State.runEnded, Bool.and_eq_true, decide_eq_true_eq, beq_iff_eq, Env.noByteLeft_iff]
  tauto

theorem State.isFaulted_of_accum {s : State} (h : s.phase = .accum) : s.isFaulted = false := by
  simp [State.isFaulted, h]

/-- Settles O49: an ended run polls NONE in ACCUM, which is O5's step; FAULTED is not ACCUM. -/
theorem anEndedRunOnlyWaits : Obligations.AnEndedRunOnlyWaits := by
  intro s
  refine ⟨State.runEnded_iff, fun hended hc => ?waits, fun hfaulted => ?faulted⟩
  case waits =>
    obtain ⟨hp, hnone, -⟩ := State.runEnded_iff.1 hended
    exact pollWithoutByteChangesNothing s hc hp hnone
  case faulted =>
    refine Bool.eq_false_iff.2 fun hended => ?_
    rw [State.isFaulted_of_accum (State.runEnded_iff.1 hended).1] at hfaulted
    cases hfaulted

end Sys2Proof.Machine
